-- ==== Sys2Proof/Word.lean ====
section
/-! DEFINITION. The word types of the interface (00_scope.md R8, R9; 30_encoding.md R60; 20_memory.md R43). -/

namespace Sys2Proof

/-- One byte of a serialised word (20_memory.md R44). -/
abbrev Byte := BitVec 8

/-- `u64` of the spec (R8): an operand field or a result word. -/
abbrev U64 := BitVec 64

/-- A command word, format `CMD208` (30_encoding.md R60). -/
abbrev CmdWord := BitVec 208

/-- A response word, format `RSP176` (30_encoding.md R60). -/
abbrev RspWord := BitVec 176

/-- One entry of the power-of-five table, `T = high * 2^64 + low` (20_memory.md R43). -/
abbrev TableEntry := BitVec 128

end Sys2Proof
end

