-- ==== Sys2Proof/Config.lean ====
section
/-! DEFINITION. The build-time choices of DMP5 and the closed sets of names its parameters range over
(00_scope.md R7). The two OPEN parameters, `LAYOUT` and `NPORTS`, are arguments of the model: State holds them
(`State.layout`, the number of `State.ports`) and every statement is over all their values (log entries 2 and 3).
The numeric parameters of R7 stand in Machine/Params.lean. There is no free value: after 30_encoding.md R69 every
command word has a fully defined response. -/

namespace Sys2Proof

/-- The parameter `LAYOUT` (R7, R24, R26): which physical table layout is built. -/
inductive Layout where
  | direct
  | compressed
deriving DecidableEq, Repr

/-- The parameter `FMT` (R7): the float widths the decomposer accepts. -/
inductive Format where
  | binary32
  | binary64
deriving DecidableEq, Repr

/-- The two read-only index spaces of 20_memory.md R40. -/
inductive Space where
  | p5
  | p5inv
deriving DecidableEq, Repr

end Sys2Proof
end

