-- ==== Sys2Proof/Machine/Params.lean ====
section
/-! DEFINITION. The numeric parameters of DMP5 (00_scope.md R7) and the format constants (40_decomposer.md R91). -/

namespace Sys2Proof.Machine

/-- `P5_BITCOUNT` (R7): width in bits of the fixed-point window of a table entry. -/
def p5BitCount : Nat := 125

/-- `P5_MAX` and `P5INV_MAX` (R7): the largest legal index of each table space (20_memory.md R40). -/
def maxIndex : Space → Nat
  | .p5 => 325
  | .p5inv => 341

/-- `SPLIT_STRIDE` (R7), the index stride of the compressed split tables. -/
def splitStride : Nat := 26

/-- `SHIFT_MIN` (R7). -/
def shiftMin : Nat := 65

/-- `SHIFT_MAX` (R7). -/
def shiftMax : Nat := 127

/-- `LOG_ARG_MAX` (R7). -/
def logArgMax : Nat := 65535

/-- `SPECIAL_EXP` (R7): the sentinel exponent of infinity and NaN. -/
def specialExp : Int := 0x7FFFFFFF

/-- `W` of R91: total width of a pattern. -/
def totalWidth : Format → Nat
  | .binary32 => 32
  | .binary64 => 64

/-- `MW` of R91: stored mantissa bits. -/
def mantissaWidth : Format → Nat
  | .binary32 => 23
  | .binary64 => 52

/-- `EW` of R91: exponent field width. -/
def exponentWidth : Format → Nat
  | .binary32 => 8
  | .binary64 => 11

/-- `BIAS` of R91. -/
def bias : Format → Nat
  | .binary32 => 127
  | .binary64 => 1023

/-- `EF_MAX` of R91: the exponent field all ones. -/
def efMax : Format → Nat
  | .binary32 => 255
  | .binary64 => 2047

/-- `E2_SUB` of R91. -/
def e2Sub : Format → Int
  | .binary32 => -151
  | .binary64 => -1076

/-- `E2_OFF` of R91. -/
def e2Off : Format → Int
  | .binary32 => 152
  | .binary64 => 1077

end Sys2Proof.Machine
end

