-- ==== Sys2Proof/Machine/Arith.lean ====
section
/-! DEFINITION. The arithmetic of the rules, on unbounded integers with explicit truncation (00_scope.md R9), and the
split of a 128-bit value into two words (20_memory.md R43). -/

namespace Sys2Proof.Machine

/-- `bitlen(x)` (R9): the number of bits of `x > 0`, and `bitlen(0) = 0`. -/
def bitlen (x : Nat) : Nat := if x = 0 then 0 else Nat.log2 x + 1

/-- `v[hi:lo]` of a number (R8), as an unsigned number of `width = hi - lo + 1` bits. -/
def slice (v lo width : Nat) : Nat := v / 2 ^ lo % 2 ^ width

/-- `to_i32(x)` (R9): the 32-bit two's complement pattern of `x`. -/
def toI32 (x : Int) : BitVec 32 := BitVec.ofInt 32 x

/-- `RSP.r0 <- v mod 2^64`. -/
def lowWord (v : Nat) : U64 := BitVec.ofNat 64 (v % 2 ^ 64)

/-- `RSP.r1 <- v div 2^64`. -/
def highWord (v : Nat) : U64 := BitVec.ofNat 64 (v / 2 ^ 64)

/-- The TableEntry `high * 2^64 + low` (R43). -/
def joinWords (high low : U64) : Nat := high.toNat * 2 ^ 64 + low.toNat

/-- `pow5Bits(e) = ((e * 163391164108059) >> 46) + 1` (42_pow5_table.md R151). -/
def pow5Bits (e : Nat) : Nat := e * 163391164108059 / 2 ^ 46 + 1

/-- `log10Pow2(e) = (e * 169464822037455) >> 49` (42_pow5_table.md R154). -/
def log10Pow2 (e : Nat) : Nat := e * 169464822037455 / 2 ^ 49

/-- `log10Pow5(e) = (e * 196742565691928) >> 48` (42_pow5_table.md R157). -/
def log10Pow5 (e : Nat) : Nat := e * 196742565691928 / 2 ^ 48

/-- The 128-bit sum `S` of `MULSHIFT64`, in the order of 41_multiply_shift.md R124:
`(m * mul_low) div 2^64 + m * mul_high`. -/
def mulShiftSum (m mulLow mulHigh : Nat) : Nat := m * mulLow / 2 ^ 64 + m * mulHigh

/-- The quotient `Q = S div 2^(shift - 64)` (R124). -/
def mulShift (m mulLow mulHigh shift : Nat) : Nat := mulShiftSum m mulLow mulHigh / 2 ^ (shift - 64)

/-- The four-partial-product arrangement of 41_multiply_shift.md R123, as `(hi, lo)`. Not used by any operation: R121 and
R122 alone define the responses; it stands here because the spec writes it out and claims it equal. -/
def partialProducts (a b : Nat) : Nat × Nat :=
  let a0 := a % 2 ^ 32
  let a1 := a / 2 ^ 32
  let b0 := b % 2 ^ 32
  let b1 := b / 2 ^ 32
  let mid1 := a1 * b0 + a0 * b0 / 2 ^ 32
  let mid2 := a0 * b1 + mid1 % 2 ^ 32
  (a1 * b1 + mid1 / 2 ^ 32 + mid2 / 2 ^ 32, mid2 % 2 ^ 32 * 2 ^ 32 + a0 * b0 % 2 ^ 32)

end Sys2Proof.Machine
end

