-- ==== Sys2Proof/Machine/State.lean ====
section
/-! DEFINITION. What State holds: the command words presented on the block's ports, what a step hands back to the caller, and the
inputs the caller drives, as plain data. DMP5 itself has no mutable architectural state (10_state.md R20): every general register,
program counter, flag, control register and writable memory is absent (R21 to R25, 20_memory.md R42), and the table ROM is a constant
(Machine/Rom.lean, Machine/RomCompressed.lean; log entry 1). -/

namespace Sys2Proof.Machine

/-- The status codes of a response (60_exceptions.md R250). -/
inductive Status where
  | ok
  | badOp
  | badOperand
  | badIndex
  | badShift
deriving DecidableEq, Repr

/-- The five classes of a float (40_decomposer.md R93). -/
inductive Cls where
  | zero
  | subnormal
  | normal
  | inf
  | nan
deriving DecidableEq, Repr

/-- A response (30_encoding.md R63). A field no rule assigns is 0 (00_scope.md R10, R64), so the defaults are 0; `cls = none`
is the code 0 of a response that is not an `OK` response of the decomposer. The bits that are always 0 are left out here
(93_implementation_defined.md U12) and put back by `Response.word`. -/
structure Response where
  status       : Status := .ok
  r0           : U64 := 0
  r1           : U64 := 0
  e            : BitVec 32 := 0
  sign         : Bool := false
  cls          : Option Cls := none
  mmShift      : Bool := false
  acceptBounds : Bool := false
deriving DecidableEq, Repr

/-- One command/response port (60_exceptions.md R266): the command word of the transaction in progress there, if the caller has
presented one (00_scope.md R11). -/
abbrev Port := Option CmdWord

/-- A response on its way to the caller: on which port, and what it is (10_state.md R27). -/
structure Delivery where
  port : Nat
  rsp  : Response
deriving DecidableEq, Repr

/-- The state. No step changes `layout`, `sel`, `rst` or the number of ports. -/
structure State where
  /-- The build parameter `LAYOUT` (00_scope.md R7, 10_state.md R24); log entry 2. -/
  layout   : Layout
  /-- The ports; `NPORTS` (R7) is how many there are; log entry 3. -/
  ports    : List Port
  /-- What the step that led to this state handed to the caller, and not a thing the block keeps: every step sets it anew, no step
  reads it (10_state.md R20, R21, R27; 70_reset_and_hazards.md R281; 92_eei_decisions.md D9); log entry 7. -/
  out      : Option Delivery
  /-- An input: the port whose transaction the next step performs; log entry 4. -/
  sel      : Nat
  /-- An input: the reset line is asserted (R281, R282); log entry 5. -/
  rst      : Bool
  /-- The model's own record, not the block's: the first status other than `OK` any transaction was answered with, never
  cleared (60_exceptions.md R257); log entry 8. -/
  runFault : Option Status
deriving DecidableEq, Repr

/-- What stops the machine. -/
inductive Fault where
  /-- Raised by `step` when the input `sel` names a port the block does not have. Safe: the block never gets there, the model
  stops instead of choosing (log entry 9). -/
  | absentPort
deriving DecidableEq, Repr

/-- An instruction without a meaning. -/
inductive Refusal where
  /-- Raised by `exec` for an instruction that has no meaning yet; no arm raises it. Safe: nothing can be proved of a run that
  stops there. -/
  | notModelled (mnemonic : String)
deriving DecidableEq, Repr

/-- What a step answers. -/
abbrev Outcome := Host.Outcome State Fault Refusal

/-- The machine right after reset (10_state.md R29, R281): no transaction in progress, no response. The layout,
the number of ports, the two inputs and the empty record are choices (log entries 2, 3, 4, 5 and 8). -/
def State.reset : State :=
  { layout := .direct, ports := [none], out := none, sel := 0, rst := false, runFault := none }

/-- The response port `p` carries at this moment: the one the last step gave there, none if it gave none (R281). -/
def State.response (s : State) (p : Nat) : Option Response :=
  match s.out with
  | some d => if d.port = p then some d.rsp else none
  | none => none

/-- The command word of the transaction in progress on port `p`. -/
def State.command (s : State) (p : Nat) : Option CmdWord := (s.ports[p]?).join

end Sys2Proof.Machine
end

