-- ==== Sys2Proof/Machine/Flags.lean ====
section
/-! DEFINITION. The decomposer's small outputs. They are fields of the response and no state (10_state.md R23): the field
extraction they rest on (40_decomposer.md R92), the class (R93), `mm_shift` (R99, 90_conflicts.md C1 and C2) and
`accept_bounds` (R98). A pattern is the number its bits hold. -/

namespace Sys2Proof.Machine

/-- `sign = bits[W-1]` (R92). -/
def signOf (f : Format) (bits : Nat) : Bool := slice bits (totalWidth f - 1) 1 == 1

/-- `ef = bits[W-2:MW]` (R92). -/
def efOf (f : Format) (bits : Nat) : Nat := slice bits (mantissaWidth f) (exponentWidth f)

/-- `mf = bits[MW-1:0]` (R92). -/
def mfOf (f : Format) (bits : Nat) : Nat := slice bits 0 (mantissaWidth f)

/-- The class, tested in the order of R93. -/
def classify (f : Format) (ef mf : Nat) : Cls :=
  if ef = 0 ∧ mf = 0 then .zero
  else if ef = efMax f ∧ mf = 0 then .inf
  else if ef = efMax f then .nan
  else if ef = 0 then .subnormal
  else .normal

/-- `mm_shift` (R99): 0 exactly at a power of two whose lower neighbour is in the binade below. -/
def mmShiftOf (ef mf : Nat) : Bool := !(mf == 0 && decide (1 < ef))

/-- `accept_bounds` (R98): `m2` is even. -/
def acceptBoundsOf (m2 : Nat) : Bool := m2 % 2 == 0

end Sys2Proof.Machine
end

