-- ==== Sys2Proof/Syntax.lean ====
section
/-! DEFINITION. The ten operations of DMP5, one constructor per row of spec/opcode_table.json (30_encoding.md R66).
An operation carries all four operand fields of its command word (R61): which of them it reads, and which must be
zero, is part of the operation's own rule (R62, R68), so a command that names an operation and breaks that rule is
still that operation's command and is answered by it. -/

namespace Sys2Proof

/-- The operand fields of a command word beside `op` (30_encoding.md R61). -/
structure Fields where
  a  : U64
  b  : U64 := 0
  c  : U64 := 0
  sh : BitVec 8 := 0
deriving DecidableEq, Repr

/-- The ten operations (30_encoding.md R66). -/
inductive Instr where
  | dec32 (o : Fields)
  | dec64 (o : Fields)
  | mul64 (o : Fields)
  | mulhi64 (o : Fields)
  | mulshift64 (o : Fields)
  | pow5bits (o : Fields)
  | log10pow2 (o : Fields)
  | log10pow5 (o : Fields)
  | pow5 (o : Fields)
  | pow5inv (o : Fields)
deriving DecidableEq, Repr

/-- The four families that the upper nibble of `op` names (30_encoding.md R66). -/
inductive Family where
  | decomposer
  | multiplier
  | logHelper
  | table
deriving DecidableEq, Repr

/-- The operand fields of an operation. -/
def Instr.fields : Instr → Fields
  | .dec32 o => o
  | .dec64 o => o
  | .mul64 o => o
  | .mulhi64 o => o
  | .mulshift64 o => o
  | .pow5bits o => o
  | .log10pow2 o => o
  | .log10pow5 o => o
  | .pow5 o => o
  | .pow5inv o => o

/-- The family of an operation (30_encoding.md R66). -/
def Instr.family : Instr → Family
  | .dec32 _ => .decomposer
  | .dec64 _ => .decomposer
  | .mul64 _ => .multiplier
  | .mulhi64 _ => .multiplier
  | .mulshift64 _ => .multiplier
  | .pow5bits _ => .logHelper
  | .log10pow2 _ => .logHelper
  | .log10pow5 _ => .logHelper
  | .pow5 _ => .table
  | .pow5inv _ => .table

end Sys2Proof
end

