-- ==== Sys2Proof/Machine/Operands.lean ====
section
/-! DEFINITION. Operand assembly (30_encoding.md R62): each operand is the unsigned integer its field holds, and the checks the
operations make on their fields before they run (R65 steps 2 to 4). -/

namespace Sys2Proof.Machine

/-- The operation reads `a` only: `b`, `c` and `sh` must be 0 (R62, R68). -/
def onlyA (o : Fields) : Bool := o.b == 0 && (o.c == 0 && o.sh == 0)

/-- The operation reads `a` and `b`: `c` and `sh` must be 0 (R62, R68). -/
def onlyAB (o : Fields) : Bool := o.c == 0 && o.sh == 0

/-- `a[63:32]` must be 0 (R62, row `DEC32`; 40_decomposer.md R100). -/
def upperClear (o : Fields) : Bool := o.a.extractLsb' 32 32 == 0

/-- `CMD.a[31:0]`, the binary32 pattern (R100), as a number. -/
def pattern32 (o : Fields) : Nat := (o.a.extractLsb' 0 32).toNat

/-- `CMD.a`, the binary64 pattern (R101), as a number. -/
def pattern64 (o : Fields) : Nat := o.a.toNat

/-- `CMD.a <= LOG_ARG_MAX` (42_pow5_table.md R159). -/
def helperInDomain (o : Fields) : Bool := decide (o.a.toNat ≤ logArgMax)

/-- `SHIFT_MIN <= CMD.sh <= SHIFT_MAX` (41_multiply_shift.md R124, R128). -/
def shiftInDomain (o : Fields) : Bool := decide (shiftMin ≤ o.sh.toNat) && decide (o.sh.toNat ≤ shiftMax)

end Sys2Proof.Machine
end

