-- ==== Sys2Proof/Decode.lean ====
section
/-! DEFINITION. Reading an operation from a command word and writing one into a command word (30_encoding.md R60, R61,
R66, R67), and the byte form of a command word (20_memory.md R44). `op` alone selects the operation (R66); the only
refusal is an `op` that names none (R65 step 1, R67). -/

namespace Sys2Proof

/-- Why a command word names no operation. -/
inductive DecodeError where
  /-- `op` is none of the ten codes (30_encoding.md R67): the block answers `BAD_OP` (step), a next state. -/
  | badOp (op : BitVec 8)
deriving DecidableEq, Repr

/-- Why a string of bytes is no command. -/
inductive ByteError where
  /-- Not the 26 bytes of one command word (R60: "There are no other lengths"). -/
  | badLength (n : Nat)
  /-- The 26 bytes hold a command word whose `op` names no operation. -/
  | badOp (op : BitVec 8)
deriving DecidableEq, Repr

/-- The result of decoding a command word. -/
abbrev Decoded := Except DecodeError Instr

/-- R61: `op` is bits 207:200. -/
def CmdWord.op (w : CmdWord) : BitVec 8 := w.extractLsb' 200 8

/-- R61: `sh` 199:192, `c` 191:128, `b` 127:64, `a` 63:0. -/
def CmdWord.fields (w : CmdWord) : Fields :=
  { a := w.extractLsb' 0 64, b := w.extractLsb' 64 64, c := w.extractLsb' 128 64, sh := w.extractLsb' 192 8 }

/-- R66 read from code to operation; every other code is refused by name (R67). -/
def decodeOp (op : BitVec 8) (o : Fields) : Decoded :=
  match op with
  | 0x01#8 => .ok (.dec32 o)
  | 0x02#8 => .ok (.dec64 o)
  | 0x10#8 => .ok (.mul64 o)
  | 0x11#8 => .ok (.mulhi64 o)
  | 0x12#8 => .ok (.mulshift64 o)
  | 0x20#8 => .ok (.pow5bits o)
  | 0x21#8 => .ok (.log10pow2 o)
  | 0x22#8 => .ok (.log10pow5 o)
  | 0x30#8 => .ok (.pow5 o)
  | 0x31#8 => .ok (.pow5inv o)
  | _ => .error (.badOp op)

/-- The operation a command word names. -/
def decodeWord (w : CmdWord) : Decoded := decodeOp (CmdWord.op w) (CmdWord.fields w)

/-- R66 read from operation to code. -/
def Instr.opcode : Instr → BitVec 8
  | .dec32 _ => 0x01
  | .dec64 _ => 0x02
  | .mul64 _ => 0x10
  | .mulhi64 _ => 0x11
  | .mulshift64 _ => 0x12
  | .pow5bits _ => 0x20
  | .log10pow2 _ => 0x21
  | .log10pow5 _ => 0x22
  | .pow5 _ => 0x30
  | .pow5inv _ => 0x31

/-- The code of a family, the upper nibble of `op` (R66). -/
def Family.code : Family → BitVec 4
  | .decomposer => 0
  | .multiplier => 1
  | .logHelper => 2
  | .table => 3

/-- The command word `{op, sh, c, b, a}` (R61; `{x, y}` has `x` in the upper bits, 00_scope.md R8). -/
def packCommand (op : BitVec 8) (o : Fields) : CmdWord := op ++ o.sh ++ o.c ++ o.b ++ o.a

/-- The command word of an operation: the encoder. -/
def encodeWord (i : Instr) : CmdWord := packCommand i.opcode i.fields

/-- `n` bytes of a number, least significant first (20_memory.md R44: "byte 0 holds bits 7:0"). -/
def bytesOf : Nat → Nat → List Byte
  | 0, _ => []
  | n + 1, v => BitVec.ofNat 8 v :: bytesOf n (v / 256)

/-- The number a string of bytes holds, least significant byte first. -/
def numberOfBytes : List Byte → Nat
  | [] => 0
  | x :: xs => x.toNat + 256 * numberOfBytes xs

/-- The 26 bytes of a command (R44). -/
def encodeBytes (i : Instr) : List Byte := bytesOf 26 (encodeWord i).toNat

/-- Decoding any string of bytes: one command is exactly 26 bytes (R60). -/
def decodeBytes (bs : List Byte) : Except ByteError Instr :=
  if bs.length = 26 then
    match decodeWord (BitVec.ofNat 208 (numberOfBytes bs)) with
    | .ok i => .ok i
    | .error (.badOp op) => .error (.badOp op)
  else .error (.badLength bs.length)

/-- The host's window on the decoder. The table's numbering is R61's: a command is ONE word of 208 bits, bit 0 its least
significant. Bits from `nbits` up are 0; a number of more than 208 bits is no command. -/
def decodeTableWord (nbits w : Nat) : Option Instr :=
  if w % 2 ^ nbits < 2 ^ 208 then
    match decodeWord (BitVec.ofNat 208 (w % 2 ^ nbits)) with
    | .ok i => some i
    | .error _ => none
  else none

end Sys2Proof
end

