-- ==== Sys2Proof/Machine/Rom.lean ====
section
/-! DEFINITION. The table ROM of the layout `DIRECT` (10_state.md R26, R29): the listings of 43_pow5_values.md R200 and
44_pow5inv_values.md R201, each entry `high * 2^64 + low` (20_memory.md R43). Constants: nothing writes them (R42, R179;
log entry 1). That every entry is what 42_pow5_table.md R161 and R162 define is proved in Laws/Tables.lean. -/

namespace Sys2Proof.Machine

/-- Entries 0 to 31 of `romP5`. -/
def romP5Part0 : List TableEntry := [
  0x10000000000000000000000000000000, 0x14000000000000000000000000000000, 0x19000000000000000000000000000000, 0x1F400000000000000000000000000000,
  0x13880000000000000000000000000000, 0x186A0000000000000000000000000000, 0x1E848000000000000000000000000000, 0x1312D000000000000000000000000000,
  0x17D78400000000000000000000000000, 0x1DCD6500000000000000000000000000, 0x12A05F20000000000000000000000000, 0x174876E8000000000000000000000000,
  0x1D1A94A2000000000000000000000000, 0x12309CE5400000000000000000000000, 0x16BCC41E900000000000000000000000, 0x1C6BF526340000000000000000000000,
  0x11C37937E08000000000000000000000, 0x16345785D8A000000000000000000000, 0x1BC16D674EC800000000000000000000, 0x1158E460913D00000000000000000000,
  0x15AF1D78B58C40000000000000000000, 0x1B1AE4D6E2EF50000000000000000000, 0x10F0CF064DD592000000000000000000, 0x152D02C7E14AF6800000000000000000,
  0x1A784379D99DB4200000000000000000, 0x108B2A2C280290940000000000000000, 0x14ADF4B7320334B90000000000000000, 0x19D971E4FE8401E74000000000000000,
  0x1027E72F1F1281308800000000000000, 0x1431E0FAE6D7217CAA00000000000000, 0x193E5939A08CE9DBD480000000000000, 0x1F8DEF8808B02452C9A0000000000000]

/-- Entries 32 to 63 of `romP5`. -/
def romP5Part1 : List TableEntry := [
  0x13B8B5B5056E16B3BE04000000000000, 0x18A6E32246C99C60AD85000000000000, 0x1ED09BEAD87C0378D8E6400000000000, 0x13426172C74D822B878FE80000000000,
  0x1812F9CF7920E2B66973E20000000000, 0x1E17B84357691B6403D0DA8000000000, 0x12CED32A16A1B11E8262889000000000, 0x178287F49C4A1D6622FB2AB400000000,
  0x1D6329F1C35CA4BFABB9F56100000000, 0x125DFA371A19E6F7CB54395CA0000000, 0x16F578C4E0A060B5BE2947B3C8000000, 0x1CB2D6F618C878E32DB399A0BA000000,
  0x11EFC659CF7D4B8DFC90400474400000, 0x166BB7F0435C9E717BB4500591500000, 0x1C06A5EC5433C60DDAA16406F5A40000, 0x118427B3B4A05BC8A8A4DE8459868000,
  0x15E531A0A1C872BAD2CE16256FE82000, 0x1B5E7E08CA3A8F6987819BAECBE22800, 0x111B0EC57E6499A1F4B1014D3F6D5900, 0x1561D276DDFDC00A71DD41A08F48AF40,
  0x1ABA4714957D300D0E549208B31ADB10, 0x10B46C6CDD6E3E0828F4DB456FF0C8EA, 0x14E1878814C9CD8A33321216CBECFB24, 0x1A19E96A19FC40ECBFFE969C7EE839ED,
  0x105031E2503DA893F7FF1E21CF512434, 0x14643E5AE44D12B8F5FEE5AA43256D41, 0x197D4DF19D605767337E9F14D3EEC892, 0x1FDCA16E04B86D41005E46DA08EA7AB6,
  0x13E9E4E4C2F34448A03AEC4845928CB2, 0x18E45E1DF3B0155AC849A75A56F72FDE, 0x1F1D75A5709C1AB17A5C1130ECB4FBD6, 0x13726987666190AEEC798ABE93F11D65]

/-- Entries 64 to 95 of `romP5`. -/
def romP5Part2 : List TableEntry := [
  0x184F03E93FF9F4DAA797ED6E38ED64BF, 0x1E62C4E38FF87211517DE8C9C728BDEF, 0x12FDBB0E39FB474AD2EEB17E1C7976B5, 0x17BD29D1C87A191D87AA5DDDA397D462,
  0x1DAC74463A989F64E994F5550C7DC97B, 0x128BC8ABE49F639F11FD195527CE9DED, 0x172EBAD6DDC73C86D67C5FAA71C24568, 0x1CFA698C95390BA88C1B77950E32D6C2,
  0x121C81F7DD43A74957912ABD28DFC639, 0x16A3A275D494911BAD75756C7317B7C8, 0x1C4C8B1349B9B56298D2D2C78FDDA5BA, 0x11AFD6EC0E14115D9F83C3BCB9EA8794,
  0x161BCCA7119915B50764B4ABE8652979, 0x1BA2BFD0D5FF5B22493DE1D6E27E73D7, 0x1145B7E285BF98F56DC6AD264D8F0866, 0x159725DB272F7F32C938586FE0F2CA80,
  0x1AFCEF51F0FB5EFF7B866E8BD92F7D20, 0x10DE1593369D1B5FAD34051767BDAE34, 0x15159AF8044462379881065D41AD19C1, 0x1A5B01B605557AC57EA147F492186032,
  0x1078E111C3556CBB6F24CCF8DB4F3C1F, 0x14971956342AC7EA4AEE003712230B27, 0x19BCDFABC13579E4DDA98044D6ABCDF0, 0x10160BCB58C16C2F0A89F02B062B60B6,
  0x141B8EBE2EF1C73ACD2C6C35C7B638E4, 0x1922726DBAAE39098077874339A3C71D, 0x1F6B0F092959C74BE0956914080CB8E4, 0x13A2E965B9D81C8F6C5D61AC8507F38E,
  0x188BA3BF284E23B34774BA17A649F072, 0x1EAE8CAEF261ACA01951E89D8FDC6C8F, 0x132D17ED577D0BE40FD3316279E9C3D9, 0x17F85DE8AD5C4EDD13C7FDBB186434CF]

/-- Entries 96 to 127 of `romP5`. -/
def romP5Part3 : List TableEntry := [
  0x1DF67562D8B3629458B9FD29DE7D4203, 0x12BA095DC7701D9CB7743E3A2B0E4942, 0x17688BB5394C2503E5514DC8B5D1DB92, 0x1D42AEA2879F2E44DEA5A13AE3465277,
  0x1249AD2594C37CEB0B2784C4CE0BF38A, 0x16DC186EF9F45C25CDF165F6018EF06D, 0x1C931E8AB871732F416DBF7381F2AC88, 0x11DBF316B346E7FD88E497A83137ABD5,
  0x1652EFDC6018A1FCEB1DBD923D8596CA, 0x1BE7ABD3781ECA7C25E52CF6CCE6FC7D, 0x1170CB642B133E8D97AF3C1A40105DCE, 0x15CCFE3D35D80E30FD9B0B20D0147542,
  0x1B403DCC834E11BD3D01CDE904199292, 0x1108269FD210CB16462120B1A28FFB9B, 0x154A3047C694FDDBD7A968DE0B33FA82, 0x1A9CBC59B83A3D52CD93C3158E00F923,
  0x10A1F5B813246653C07C59ED78C09BB6, 0x14CA732617ED7FE8B09B7068D6F0C2A3, 0x19FD0FEF9DE8DFE2DCC24C830CACF34C, 0x103E29F5C2B18BEDC9F96FD1E7EC180F,
  0x144DB473335DEEE93C77CBC661E71E13, 0x1961219000356AA38B95BEB7FA60E598, 0x1FB969F40042C54C6E7B2E65F8F91EFE, 0x13D3E2388029BB4FC50CFCFFBB9BB35F,
  0x18C8DAC6A0342A23B6503C3FAA82A037, 0x1EFB1178484134ACA3E44B4F95234844, 0x135CEAEB2D28C0EBE66EAF11BD360D2B, 0x183425A5F872F126E00A5AD62C839075,
  0x1E412F0F768FAD70980CF18BB7A47493, 0x12E8BD69AA19CC665F0816F752C6C8DC, 0x17A2ECC414A03F7FF6CA1CB527787B13, 0x1D8BA7F519C84F5FF47CA3E2715699D7]

/-- Entries 128 to 159 of `romP5`. -/
def romP5Part4 : List TableEntry := [
  0x127748F9301D319BF8CDE66D86D62026, 0x17151B377C247E02F7016008E88BA830, 0x1CDA62055B2D9D83B4C1B80B22AE923C, 0x12087D4358FC827250F91306F5AD1B65,
  0x168A9C942F3BA30EE53757C8B318623F, 0x1C2D43B93B0A8BD29E852DBADFDE7ACF, 0x119C4A53C4E69763A3133C94CBEB0CC1, 0x16035CE8B6203D3C8BD80BB9FEE5CFF1,
  0x1B843422E3A84C8BAECE0EA87E9F43EE, 0x1132A095CE492FD74D40C9294F238A75, 0x157F48BB41DB7BCD2090FB73A2EC6D12, 0x1ADF1AEA12525AC068B53A508BA78856,
  0x10CB70D24B7378B8417144725748B536, 0x14FE4D06DE5056E651CD958EED1AE283, 0x1A3DE04895E46C9FE640FAF2A8619B24, 0x1066AC2D5DAEC3E3EFE89CD7A93D00F7,
  0x14805738B51A74DCEBE2C40D938C4134, 0x19A06D06E261121426DB7510F86F5181, 0x100444244D7CAB4C9849292A9B4592F1, 0x1405552D60DBD61FBE5B73754216F7AD,
  0x1906AA78B912CBA7ADF25052929CB598, 0x1F485516E7577E91996EE4673743E2FF, 0x138D352E5096AF1AFFE54EC0828A6DDF, 0x18708279E4BC5AE1BFDEA270A32D0957,
  0x1E8CA3185DEB719A2FD64B0CCBF84BAD, 0x1317E5EF3AB327005DE5EEE7FF7B2F4C, 0x17DDDF6B095FF0C0755F6AA1FF59FB1F, 0x1DD55745CBB7ECF092B7454A7F3079E7,
  0x12A5568B9F52F4165BB28B4E8F7E4C30, 0x174EAC2E8727B11BF29F2E22335DDF3C, 0x1D22573A28F19D62EF46F9AAC035570B, 0x123576845997025DD58C5C0AB8215667]

/-- Entries 160 to 191 of `romP5`. -/
def romP5Part5 : List TableEntry := [
  0x16C2D4256FFCC2F54AEF730D6629AC01, 0x1C73892ECBFBF3B29DAB4FD0BFB41701, 0x11C835BD3F7D784FA28B11E277D08E60, 0x163A432C8F5CD6638B2DD65B15C4B1F9,
  0x1BC8D3F7B3340BFC6DF94BF1DB35DE77, 0x115D847AD000877DC4BBCF772901AB0A, 0x15B4E5998400A95D35EAC354F34215CD, 0x1B221EFFE500D3B48365742A30129B40,
  0x10F5535FEF208450D21F689A5E0BA108, 0x1532A837EAE8A56506A742C0F58E894A, 0x1A7F5245E5A2CEBE4851137132F22B9D, 0x108F936BAF85C136ED32AC26BFD75B42,
  0x14B378469B673184A87F57306FCD3212, 0x19E056584240FDE5D29F2CFC8BC07E97, 0x102C35F729689EAFA3A37C1DD7584F1E, 0x14374374F3C2C65B8C8C5B254D2E62E6,
  0x1945145230B377F26FAF71EEA079FB9F, 0x1F965966BCE055EF0B9B4E6A48987A87, 0x13BDF7E0360C35B5674111026D5F4C94, 0x18AD75D8438F4322C111554308B71FBA,
  0x1ED8D34E547313EB7155AA93CAE4E7A8, 0x13478410F4C7EC7326D58A9C5ECF10C9, 0x1819651531F9E78FF08AED437682D4FB, 0x1E1FBE5A7E786173ECADA89454238A3A,
  0x12D3D6F88F0B3CE873EC895CB4963664, 0x1788CCB6B2CE0C2290E7ABB3E1BBC3FD, 0x1D6AFFE45F818F2B352196A0DA2AB4FD, 0x1262DFEEBBB0F97B0134FE24885AB11E,
  0x16FB97EA6A9D37D9C1823DADAA715D65, 0x1CBA7DE5054485D031E2CD19150DB4BF, 0x11F48EAF234AD3A21F2DC02FAD2890F7, 0x1671B25AEC1D888AA6F9303B9872B535]

/-- Entries 192 to 223 of `romP5`. -/
def romP5Part6 : List TableEntry := [
  0x1C0E1EF1A724EAAD50B77C4A7E8F6282, 0x1188D357087712AC5272ADAE8F199D91, 0x15EB082CCA94D757670F591A32E004F6, 0x1B65CA37FD3A0D2D40D32F60BF980633,
  0x111F9E62FE44483C4883FD9C77BF03E0, 0x156785FBBDD55A4B5AA4FD0395AEC4D8, 0x1AC1677AAD4AB0DE314E3C447B1A760E, 0x10B8E0ACAC4EAE8ADED0E5AACCF089C9,
  0x14E718D7D7625A2D96851F15802CAC3B, 0x1A20DF0DCD3AF0B8FC2666DAE037D74A, 0x10548B68A044D6739D980048CC22E68E, 0x1469AE42C8560C1084FE005AFF2BA032,
  0x198419D37A6B8F14A63D8071BEF6883E, 0x1FE52048590672D9CFCCE08E2EB42A4E, 0x13EF342D37A407C821E00C58DD309A70, 0x18EB0138858D09BA2A580F6F147CC10D,
  0x1F25C186A6F04C28B4EE134AD99BF150, 0x137798F428562F997114CC0EC80176D2, 0x18557F31326BBB7FCD59FF127A01D486, 0x1E6ADEFD7F06AA5FC0B07ED7188249A8,
  0x1302CB5E6F642A7BD86E4F466F516E09, 0x17C37E360B3D351ACE89E3180B25C98B, 0x1DB45DC38E0C8261822C5BDE0DEF3BEE, 0x1290BA9A38C7D17CF15BB96AC8B58575,
  0x1734E940C6F9C5DC2DB2A7C57AE2E6D2, 0x1D022390F8B83753391F51B6D99BA086, 0x1221563A9B73229403B3931248014454, 0x16A9ABC9424FEB3904A077D6DA019569,
  0x1C5416BB92E3E60745C895CC9081FAC3, 0x11B48E353BCE6FC48B9D5D9FDA513CBA, 0x1621B1C28AC20BB5AE84B507D0E58BE8, 0x1BAA1E332D728EA31A25E249C51EEEE3]

/-- Entries 224 to 255 of `romP5`. -/
def romP5Part7 : List TableEntry := [
  0x114A52DFFC679925F057AD6E1B33554D, 0x159CE797FB817F6F6C6D98C9A2002AA1, 0x1B04217DFA61DF4B4788FEFC0A803549, 0x10E294EEBC7D2B8F0CB59F5D8690214E,
  0x151B3A2A6B9C7672CFE30734E83429A1, 0x1A6208B50683940F83DBC9022241340A, 0x107D457124123C89B2695DA15568C086, 0x149C96CD6D16CBAC1F03B509AAC2F0A7,
  0x19C3BC80C85C7E9726C4A24C1573ACD1, 0x101A55D07D39CF1E783AE56F8D684C03, 0x1420EB449C8842E616499ECB70C25F03, 0x19292615C3AA539F9BDC067E4CF2F6C4,
  0x1F736F9B3494E88782D3081DE02FB476, 0x13A825C100DD1154B1C3E512AC1DD0C9, 0x18922F31411455A9DE34DE57572544FC, 0x1EB6BAFD91596B1455C215ED2CEE963B,
  0x133234DE7AD7E2ECB5994DB43C151DE5, 0x17FEC216198DDBA7E2FFA1214B1A655E, 0x1DFE729B9FF15291DBBF89699DE0FEB6, 0x12BF07A143F6D39B2957B5E202AC9F31,
  0x176EC98994F48881F3ADA35A8357C6FE, 0x1D4A7BEBFA31AAA270990C31242DB8BD, 0x124E8D737C5F0AA5865FA79EB69C9376, 0x16E230D05B76CD4EE7F791866443B854,
  0x1C9ABD04725480A2A1F575E7FD54A669, 0x11E0B622C774D065A53969B0FE54E801, 0x1658E3AB7952047F0E87C41D3DEA2202, 0x1BEF1C9657A6859ED229B5248D64AA82,
  0x117571DDF6C81383435A1136D85EEA91, 0x15D2CE55747A1864143095848E76A536, 0x1B4781EAD1989E7D193CBAE5B2144E83, 0x110CB132C2FF630E2FC5F4CF8F4CB112]

/-- Entries 256 to 287 of `romP5`. -/
def romP5Part8 : List TableEntry := [
  0x154FDD7F73BF3BD1BBB77203731FDD56, 0x1AA3D4DF50AF0AC62AA54E844FE7D4AC, 0x10A6650B926D66BBDAA75112B1F0E4EB, 0x14CFFE4E7708C06AD15125575E6D1E26,
  0x1A03FDE214CAF08585A56EAD360865B0, 0x10427EAD4CFED6537387652C41C53F8E, 0x14531E58A03E8BE850693E7752368F71, 0x1967E5EEC84E2EE264838E1526C4334E,
  0x1FC1DF6A7A61BA9AFDA4719A70754022, 0x13D92BA28C7D14A0DE86C70086494815, 0x18CF768B2F9C59C9162878C0A7DB9A1A, 0x1F03542DFB83703B5BB296F0D1D280A1,
  0x1362149CBD322625194F9E5683239064, 0x183A99C3EC7EAFAE5FA385EC23EC747E, 0x1E494034E79E5B99F78C67672CE7919D, 0x12EDC82110C2F9403AB7C0A07C10BB02,
  0x17A93A2954F3B7904965B0C89B14E9C3, 0x1D9388B3AA30A5745BBF1CFAC1DA2433, 0x127C35704A5E6768B957721CB92856A0, 0x171B42CC5CF60142E7AD4EA3E7726C48,
  0x1CE2137F74338193A198A24CE14F075A, 0x120D4C2FA8A030FC44FF65700CD16498, 0x16909F3B92C83D3B563F3ECC1005BDBE, 0x1C34C70A777A4C8A2BCF0E7F14072D2E,
  0x11A0FC668AAC6FD65B61690F6C847C3D, 0x16093B802D578BCBF239C35347A59B4C, 0x1B8B8A6038AD6EBEEEC83428198F021F, 0x1137367C236C6537553D20990FF96153,
  0x1585041B2C477E852A8C68BF53F7B9A8, 0x1AE64521F7595E26752F82EF28F5A812, 0x10CFEB353A97DAD8093DB1D57999890B, 0x1503E602893DD18E0B8D1E4AD7FFEB4E]

/-- Entries 288 to 319 of `romP5`. -/
def romP5Part9 : List TableEntry := [
  0x1A44DF832B8D45F18E7065DD8DFFE622, 0x106B0BB1FB384BB6F9063FAA78BFEFD5, 0x1485CE9E7A065EA4B747CF9516EFEBCA, 0x19A742461887F64DE519C37A5CABE6BD,
  0x1008896BCF54F9F0AF301A2C79EB7036, 0x140AABC6C32A386CDAFC20B798664C43, 0x190D56B873F4C68811BB28E57E7FDF54, 0x1F50AC6690F1F82A1629F31EDE1FD72A,
  0x13926BC01A973B1A4DDA37F34AD3E67A, 0x187706B0213D09E0E150C5F01D88E019, 0x1E94C85C298C4C5919A4F76C24EB181F, 0x131CFD3999F7AFB7B0071AA39712EF13,
  0x17E43C8800759BA59C08E14C7CD7AAD8, 0x1DDD4BAA0093028F030B199F9C0D958E, 0x12AA4F4A405BE19961E6F003C1887D79, 0x1754E31CD072D9FFBA60AC04B1EA9CD7,
  0x1D2A1BE4048F907FA8F8D705DE65440D, 0x123A516E82D9BA4FC99B8663AAFF4A88, 0x16C8E5CA239028E3BC0267FC95BF1D2A, 0x1C7B1F3CAC74331CAB0301FBBB2EE474,
  0x11CCF385EBC89FF1EAE1E13D54FD4EC9, 0x1640306766BAC7EE659A598CAA3CA27B, 0x1BD03C81406979E9FF00EFEFD4CBCB1A, 0x116225D0C841EC323F6095F5E4FF5EF0,
  0x15BAAF44FA52673ECF38BB735E3F36AC, 0x1B295B1638E7010E8306EA5035CF0457, 0x10F9D8EDE39060A911E4527221A162B6, 0x15384F295C7478D3565D670EAA09BB64,
  0x1A8662F3B39197082BF4C0D2548C2A3D, 0x1093FDD8503AFE651B78F88374D79A66, 0x14B8FD4E6449BDFE625736A4520D8100, 0x19E73CA1FD5C2D7DFAED044D6690E140]

/-- Entries 320 to 325 of `romP5`. -/
def romP5Part10 : List TableEntry := [
  0x103085E53E599C6EBCD422B0601A8CC8, 0x143CA75E8DF0038A6C092B5C78212FFA, 0x194BD136316C046D070B763396297BF8, 0x1F9EC583BDC7058848CE53C07BB3DAF6,
  0x13C33B72569C63752D80F4584D5068DA, 0x18B40A4EEC437C5278E1316E60A48310]

/-- `ROM_P5[0..325]`, the listing of R200. -/
def romP5 : List TableEntry :=
  romP5Part0 ++ romP5Part1 ++ romP5Part2 ++ romP5Part3 ++ romP5Part4 ++ romP5Part5 ++
  romP5Part6 ++ romP5Part7 ++ romP5Part8 ++ romP5Part9 ++ romP5Part10

/-- Entries 0 to 31 of `romP5Inv`. -/
def romP5InvPart0 : List TableEntry := [
  0x20000000000000000000000000000001, 0x1999999999999999999999999999999A, 0x147AE147AE147AE147AE147AE147AE15, 0x10624DD2F1A9FBE76C8B4395810624DE,
  0x1A36E2EB1C432CA57A786C226809D496, 0x14F8B588E368F08461F9F01B866E43AB, 0x10C6F7A0B5ED8D36B4C7F34938583622, 0x1AD7F29ABCAF485787A6520EC08D236A,
  0x15798EE2308C39DF9FB841A566D74F88, 0x112E0BE826D694B2E62D01511F12A607, 0x1B7CDFD9D7BDBAB7D6AE6881CB5109A4, 0x15FD7FE17964955FDEF1ED34A2A73AEA,
  0x119799812DEA11197F27F0F6E885C8BB, 0x1C25C268497681C2650CB4BE40D60DF8, 0x16849B86A12B9B01EA70909833DE7193, 0x1203AF9EE756159B21F3A6E0297EC143,
  0x1CD2B297D889BC2B6985D7CD0F313537, 0x170EF54646D496892137DFD73F5A90F9, 0x12725DD1D243ABA0E75FE645CC4873FA, 0x1D83C94FB6D2AC34A5663D3C7A0D865D,
  0x179CA10C9242235D511E976394D79EB1, 0x12E3B40A0E9B4F7DDA7EDF82DD794BC1, 0x1E392010175EE5962A6498D1625BAC68, 0x182DB34012B25144EEB6E0A781E2F053,
  0x1357C299A88EA76A58924D52CE4F26A9, 0x1EF2D0F5DA7DD8AA27507BB7B07EA441, 0x18C240C4AECB13BB52A6C95FC0655034, 0x13CE9A36F23C0FC90EEBD44C99EAA690,
  0x1FB0F6BE50601941B17953ADC3110A80, 0x195A5EFEA6B34767C12DDC8B02740867, 0x14484BFEEBC29F863424B06F3529A052, 0x1039D66589687F9E901D59F290EE19DB]

/-- Entries 32 to 63 of `romP5Inv`. -/
def romP5InvPart1 : List TableEntry := [
  0x19F623D5A8A732974CFBC31DB4B0295F, 0x14C4E977BA1F5BAC3D9635B15D59BAB2, 0x109D8792FB4C495697AB5E277DE16228, 0x1A95A5B7F87A0EF0F2ABC9D8C9689D0D,
  0x154484932D2E725A5BBCA17A3ABA173E, 0x11039D428A8B8EAEAFCA1AC82EFB45CB, 0x1B38FB9DAA78E44AB2DCF7A6B1920945, 0x15C72FB1552D836EF57D92EBC141A104,
  0x116C262777579C58C46475896767B403, 0x1BE03D0BF225C6F46D6D88DBD8A5ECD2, 0x164CFDA3281E38C38ABE071646EB23DB, 0x11D7314F534B609C6EFE6C11D255B649,
  0x1C8B821885456760B197134FB6EF8A0E, 0x16D601AD376AB91A27AC0F72F8BFA1A5, 0x1244CE242C5560E1B95672C260994E1E, 0x1D3AE36D13BBCE35F5571E03CDC21695,
  0x17624F8A762FD82B2AAC18030B01ABAB, 0x12B50C6EC4F31355BBBCE0026F348956, 0x1DEE7A4AD4B81EEF92C7CCD0B1EDA889, 0x17F1FB6F10934BF2DBD30A408E57BA07,
  0x1327FC58DA0F6FF57CA8D50071DFC806, 0x1EA6608E29B24CBBFAA7BB33E9660CD6, 0x18851A0B548EA3C99552FC298784D711, 0x139DAE6F76D88307AAA8C9BAD2D0AC0E,
  0x1F62B0B257C0D1A5DDDADC5E1E1AACE3, 0x191BC08EAC9A41517E48B04B4B488A4F, 0x141633A556E1CDDACB6D59D5D5D3A1D9, 0x1011C2EAABE7D7E23C577B1177DC817B,
  0x19B604AAACA62636C6F25E825960CF2A, 0x14919D5556EB51C56BF518684780A5BB, 0x10747DDDDF22A7D1232A79ED06008496, 0x1A53FC9631D10C81D1DD8FE1A3340756]

/-- Entries 64 to 95 of `romP5Inv`. -/
def romP5InvPart2 : List TableEntry := [
  0x150FFD44F4A73D34A7E4731AE8F66C45, 0x10D9976A5D52975D531D28E253F8569E, 0x1AF5BF109550F22EEB61DB03B98D5762, 0x159165A6DDDA5B58BC4E48CFC7A445E8,
  0x11411E1F17E1E2AD6371D3D96C836B20, 0x1B9B6364F30304489F1C8628AD9F11CD, 0x1615E91D8F359D06E5B06B53BE18DB0B, 0x11AB20E472914A6BEAF3890FCB4715A2,
  0x1C45016D841BAA4644B8DB4C7871BC37, 0x169D9ABE0349550503C715D6C6C1635F, 0x1217AEFE690777373638DE456BCDE919, 0x1CF2B1970E72585856C163A2461641C1,
  0x17288E1271F51379DF011C81D1AB67CE, 0x1286D80EC190DC617F3416CE4155ECA5, 0x1DA48CE468E7C7026520247D3556476E, 0x17B6D71D20B96C01EA801D30F7783925,
  0x12F8AC174D612334BB99B0F3F92CFA84, 0x1E5AACF2156838545F5C4E532847F739, 0x18488A5B445360437F7D0B75B9D32C2E, 0x136D3B7C36A919CF9930D5F7C7DC2358,
  0x1F152BF9F10E8FB28EB4898C72F9D226, 0x18DDBCC7F40BA628722A07A38F2E41B8, 0x13E497065CD61E86C1BB394FA5BE9AFA, 0x1FD424D6FAF030D79C5EC2190930F7F6,
  0x197683DF2F268D7949E56814075A5FF8, 0x145ECFE5BF520AC76E51201005E1E660, 0x104BD984990E6F05F1DA800CD181851A, 0x1A12F5A0F4E3E4D64FC400148268D4F5,
  0x14DBF7B3F71CB711D96999AA01ED772B, 0x10AFF95CC5B09274ADEE1488018AC5BC, 0x1AB328946F80EA54497CEDA668DE092C, 0x155C2076BF9A55103ACA57B853E4D424]

/-- Entries 96 to 127 of `romP5Inv`. -/
def romP5InvPart3 : List TableEntry := [
  0x1116805EFFAEAA73623B7960431D7683, 0x1B5733CB32B110B89D2BF566D1C8BD9E, 0x15DF5CA28EF40D607DBCC452416D647F, 0x117F7D4ED8C33DE6CAFD69DB678AB6CC,
  0x1BFF2EE48E052FD7AB2F0FC572778ADF, 0x1665BF1D3E6A8CAC88F273045B92D580, 0x11EAFF4A98553D56D3F528D049424466, 0x1CAB3210F3BB9557B988414D4203A0A3,
  0x16EF5B40C2FC77796139CDD76802E6E9, 0x125915CD68C9F92DE761717920025254, 0x1D5B561574765B7CA568B58E999D5086, 0x177C44DDF6C515FD5120913EE14AA6D2,
  0x12C9D0B1923744CAA74D40FF1AA21F0E, 0x1E0FB44F50586E110BAECE64F769CB4A, 0x180C903F7379F1A73C8BD850C5EE3C3B, 0x133D4032C2C7F485CA0979DA37F1C9C9,
  0x1EC866B79E0CBA6FA9A8C2F6BFE942DB, 0x18A0522C7E7095262153CF2BCCBA9BE3, 0x13B374F06526DDB81AA9728970954982, 0x1F8587E7083E2F8CF775840F1A88759D,
  0x19379FEC0698260A5F9136727BA05E17, 0x142C7FF0054684D51940F85B9619E4DF, 0x1023998CD1053710E100C6AFAB47EA4C, 0x19D28F47B4D524E7CE67A44C453FDD47,
  0x14A8729FC3DDB71FD852E9D69DCCB106, 0x1086C219697E2C1979DBEE454B0A2738, 0x1A71368F0F30468F295FE3A211A9D859, 0x15275ED8D8F36BA5BAB31C81A7BB137A,
  0x10EC4BE0AD8F89516228E39AEC95A92F, 0x1B13AC9AAF4C0EE89D0E38F7E0EF7517, 0x15A956E225D67253B0D82D931A592A79, 0x11544581B7DEC1DC8D79BE0F4847552E]

/-- Entries 128 to 159 of `romP5Inv`. -/
def romP5InvPart4 : List TableEntry := [
  0x1BBA08CF8C979C94158F967EDA0BBB7C, 0x162E6D72D6DFB07677A611FF14D62F97, 0x11BEBDF578B2F391F951A7FF43DE8C79, 0x1C6463225AB7EC1CC21C3FFED2FDAD8E,
  0x16B6B5B5155FF01701B0333242648AD8, 0x122BC490DDE659AC0159C28E9B83A246, 0x1D12D41AFCA3C2ACCEF604175F3903A3, 0x17424348CA1C9BBD725E69AC4C2D9C83,
  0x129B69070816E2FDF5185489D68AE39C, 0x1DC574D80CF16B2FEE8D540FBDAB05C6, 0x17D12A4670C1228CBED77672FE226B05, 0x130DBB6B8D674ED6FF12C528CB4EBC04,
  0x1E7C5F127BD87E24CB513B74787DF9A0, 0x18637F41FCAD31B7090DC929F9FE614D, 0x1382CC34CA2427C5A0D7D42194CB810A, 0x1F37AD21436D0C6F67BFB9CF5478CE77,
  0x18F9574DCF8A70591FCC94A5DD2D71F9, 0x13FAAC3E3FA1F37A7FD6DD517DBDF4C7, 0x1FF779FD329CB8C3FFBE2EE8C92FEE0B, 0x1992C7FDC216FA366631BF20A0F324D6,
  0x14756CCB01ABFB5EB827CC1A1A5C1D78, 0x105DF0A267BCC918935309AE7B7CE460, 0x1A2FE76A3F9474F41EEB42B0C594A099, 0x14F31F8832DD2A5CE58902270476E6E1,
  0x10C27FA028B0EEB0B7A0CE859D2BEBE7, 0x1AD0CC33744E4AB459014A6F61DFDFD8, 0x1573D68F903EA229E0CDD525E7E64CAD, 0x11297872D9CBB4EE4D7177518651D6F1,
  0x1B758D848FAC54B07BE8BEE8D6E957E8, 0x15F7A46A0C89DD59FCBA3253DF211320, 0x1192E9EE706E4AAE63C8284318E74280, 0x1C1E43171A4A1117060D0D3827D86A66]

/-- Entries 160 to 191 of `romP5Inv`. -/
def romP5InvPart5 : List TableEntry := [
  0x167E9C127B6E74126B3DA42CECAD21EB, 0x11FEE341FC585CDB88FE1CF0BD574E56, 0x1CCB0536608D615F419694B462254A23, 0x1708D0F84D3DE77F67ABAA29E81DD4E9,
  0x126D73F9D764B932B95621BB2017DD87, 0x1D7BECC2F23AC1EAC223692B668C95A5, 0x179657025B6234BBCE82BA891ED6DE1D, 0x12DEAC01E2B4F6FCA53562074BDF1818,
  0x1E3113363787F1943B889CD87964F359, 0x18274291C6065ADCFC6D4A46C783F5E1, 0x13529BA7D19EAF1730576E9F06032B1A, 0x1EEA92A61C3118251A257DCB3CD1DE90,
  0x18BBA884E35A79B7481DFE3C30A7E540, 0x13C9539D82AEC7C5D34B31C9C0865100, 0x1FA885C8D117A6095211E942CDA3B4CD, 0x19539E3A40DFB80774DB21023E1C90A4,
  0x1442E4FB67196005F715B401CB4A0D50, 0x103583FC527AB337F8DE299B09080AA7, 0x19EF3993B72AB8598E304291A80CDDD7, 0x14BF6142F8EEF9E13E8D020E200A4B13,
  0x10991A9BFA58C7E7653D9B3E80083C0F, 0x1A8E90F9908E0CA56EC8F864000D2CE4, 0x153EDA614071A3B78BD3F9E999A423EA, 0x10FF151A99F482F93CA994BAE1501CBB,
  0x1B31BB5DC320D18EC775BAC49BB3612B, 0x15C162B168E70E0BD2C4956A16291A89, 0x11678227871F3E6FDBD0778811BA7BA1, 0x1BD8D03F3E9863E62C80BF401C5D929B,
  0x16470CFF6546B651BD33CC3349E47549, 0x11D270CC51055EA7CA8FD68F6E505DD4, 0x1C83E7AD4E6EFDD94419574BE3B3C953, 0x16CFEC8AA52597E10347790982F63AA9]

/-- Entries 192 to 223 of `romP5Inv`. -/
def romP5InvPart6 : List TableEntry := [
  0x123FF06EEA847980CF6C60D468C4FBBA, 0x1D331A4B10D3F59AE57A34870E07F92A, 0x175C1508DA432AE2512E906C0B399422, 0x12B010D3E1CF5581DA8BA6BCD5C7A9B5,
  0x1DE6815302E5559C90DF712E22D90F87, 0x17EB9AA8CF1DDE16DA4C5A8B4F140C6C, 0x1322E220A5B17E78AEA37BA2A5A9A38A, 0x1E9E369AA2B597277DD25F6AA2A905A9,
  0x187E92154EF7AC1F97DB7F888220D154, 0x139874DDD8C6234C797C6606CE80A777, 0x1F5A549627A36BAD8F2D700AE4010BF1, 0x191510781FB5EFBE0C2459A25000D65A,
  0x1410D9F9B2F7F2FE701D1481D99A4515, 0x100D7B2E28C65BFEC017439B147B6A77, 0x19AF2B7D0E0A2CCACCF205C4ED9243F2, 0x148C22CA71A1BD6F0A5B37D0BE0E9CC2,
  0x10701BD527B4978C0848F973CB3EE3CE, 0x1A4CF9550C5425ACDA0E5BEC78649FB0, 0x150A6110D6A9B7BD7B3EAFF060507FC0, 0x10D51A73DEEE2C9795CBBFF380406633,
  0x1AEE90B964B04758EFAC665266CD7052, 0x158BA6FAB6F36C472623850EB8A459DB, 0x113C85955F29236C1E82D0D893B6AE49, 0x1B9408EEFEA838ACFD9E1AF41F8AB075,
  0x16100725988693BD97B1AF29B2D559F7, 0x11A66C1E139EDC97AC8E25BAF5777B2C, 0x1C3D79C9B8FE2DBF7A7D092B2258C513, 0x169794A160CB57CC61FDA0EF4EAD6A76,
  0x1212DD4DE7091309E7FE1A590BBDEEC5, 0x1CEAFBAFD80E84DCA6635D5B45FCB13A, 0x172262F3133ED0B0851C4AAF6B308DC8, 0x1281E8C275CBDA26D0E36EF2BC26D7D4]

/-- Entries 224 to 255 of `romP5Inv`. -/
def romP5InvPart7 : List TableEntry := [
  0x1D9CA79D894629D7B49F17EAC6A48C86, 0x17B08617A104EE462A18DFEF0550706B, 0x12F39E794D9D8B6B54E0B3259DD9F389, 0x1E5297287C2F457887CDEB6F62F65274,
  0x18421286C9BF6AC6D30B22BF825EA85D, 0x13680ED23AFF889F0F3C1BCC684BB9E4, 0x1F0CE4839198DA9818602C7A4079296D, 0x18D71D360E13E21346B356C833942124,
  0x13DF4A91A4DCB4DC388F78A029434DB6, 0x1FCBAA82A16121605A7F2766A86BAF8A, 0x196FBB9BB44DB44D153285EBB9EFBFA2, 0x145962E2F6A4903DAA8ED189618C994E,
  0x1047824F2BB6D9CAEED8A7A11AD6E10C, 0x1A0C03B1DF8AF6117E27729B5E249B45, 0x14D6695B193BF80DFE85F549181D4904, 0x10AB877C142FF9A4CB9E5DD4134AA0D0,
  0x1AAC0BF9B9E65C3ADF63C9535211014D, 0x15566FFAFB1EB02F191CA10F74DA6771, 0x1111F32F2F4BC025ADB080D92A4852C1, 0x1B4FEB7EB212CD0915E7348EAA0D5134,
  0x15D98932280F0A6DAB1F5D3EEE710DC4, 0x117AD428200C0857BC1917658B8DA49D, 0x1BF7B9D9CCE00D592CF4F23C127C3A94, 0x165FC7E170B33DE0F0C3F4FCDB969543,
  0x11E6398126F5CB1A5A365D9716121103, 0x1CA38F350B22DE909056FC24F01CE804, 0x16E93F5DA2824BA6D9DF301D8CE3ECD0, 0x125432B14ECEA2EBE17F59B13D8323DA,
  0x1D53844EE47DD17968CBC2B52F38395C, 0x177603725064A79453D6355DBF602DE3, 0x12C4CF8EA6B6EC76A9782AB165E68B1C, 0x1E07B27DD78B13F10F26AAB56FD744FA]

/-- Entries 256 to 287 of `romP5Inv`. -/
def romP5InvPart8 : List TableEntry := [
  0x18062864AC6F43273F52222ABFDF6A62, 0x1338205089F29C1F65DB4E88997F884E, 0x1EC033B40FEA93656FC54A7428CC0D4A, 0x1899C2F673220F84596AA1F68709A43B,
  0x13AE3591F5B4D936ADEEE7F86C07B696, 0x1F7D228322BAF524497E3FF3E00C5756, 0x1930E868E89590E9D464FFF64CD6AC45, 0x14272053ED4473EE4383FFF83D7889D1,
  0x101F4D0FF1038FF1CF9CCCC69793A174, 0x19CBAE7FE805B31C7F6147A425B90252, 0x14A2F1FFECD15C16CC4DD2E9B7C7350F, 0x10825B3323DAB0123D0B0F215FD290D9,
  0x1A6A2B85062AB35061AB4B689950E7C1, 0x1521BC6A6B555C404E22A2BA1440B967, 0x10E7C9EEBC4449CD0B4EE894DD009453, 0x1B0C764AC6D3A9481217DA87C800ED51,
  0x15A391D56BDC876CDB46486CA000BDDA, 0x114FA7DDEFE39F8A490506BD4CCD64AF, 0x1BB2A62FE638FF43A8080AC87AE23AB1, 0x162884F31E93FF695339A239FBE82EF4,
  0x11BA03F5B20FFF8775C7B4FB2FECF25D, 0x1C5CD322B67FFF3F22D92191E647EA2E, 0x16B0A8E891FFFF65B57A8141850654F2, 0x1226ED86DB3332B7C4620101373843F5,
  0x1D0B15A491EB84593A366801F1F39FEE, 0x173C115074BC69E0FB5EB99B27F6198B, 0x129674405D6387E72F7EFAE2865E7AD6, 0x1DBD86CD6238D971E597F7D0D6FD9156,
  0x17CAD23DE82D7AC18479930D78CADAAB, 0x1308A831868AC89AD06142712D6F1556, 0x1E74404F3DAADA914D686A4EAF182222, 0x185D003F6488AEDAA453883EF279B4E8]

/-- Entries 288 to 319 of `romP5Inv`. -/
def romP5InvPart9 : List TableEntry := [
  0x137D99CC506D58AEE9DC6CFF28615D87, 0x1F2F5C7A1A488DE4A960AE650D6895A4, 0x18F2B061AEA07183BAB3BEB73DED4483, 0x13F559E7BEE6C1362EF6322C318A9D36,
  0x1FEEF63F97D79B89E4BD1D13827761F0, 0x198BF832DFDFAFA183CA7DA9352C4E5A, 0x146FF9C24CB2F2E79CA1FE20F756A515, 0x1059949B708F28B94A1B31B3F9121DAA,
  0x1A28EDC580E50DF5435EB5ECC1B695DD, 0x14ED8B04671DA4C435E55E57015EDE4A, 0x10BE08D0527E1D69C4B77EAC0118B1D5, 0x1AC9A7B3B7302F0FA12597799B5AB622,
  0x156E1FC2F8F358D94DB7AC6149155E81, 0x1124E63593F5E0ADD7C6238107444B9B, 0x1B6E3D2286563449593D059B3ED3AC2B, 0x15F1CA820511C36DE0FD9E15CBDC89BC,
  0x118E3B9B37416924B3FE18116FE3A163, 0x1C16C5C525357507866359B57FD29BD1, 0x16789E3750F790D2D1E91491330EE30E, 0x11FA182C40C60D7574BA76DA8F3F1C0B,
  0x1CC359E067A348BBEDF72490E531C678, 0x1702AE4D1FB5D3C98B2C1D40B75B052D, 0x12688B70E62B0FD46F567DCD5F7C0424, 0x1D74124E3D11B2ED7EF0C94898C66D06,
  0x17900EA4FDA7C25798C0A106E09EBD9F, 0x12D9A550CAEC9B79470080D24D4BCAE6, 0x1E29088144ADC58ED800CE1D487944A2, 0x1820D39A9D57D13F1333D8176D2DD082,
  0x134D76154AACA765A8F646792424A6CE, 0x1EE25688777AA56F74BD3D8EA03AA47D, 0x18B51206C5FBB78C5D64313EE6955064, 0x13C40E6BD1962C704AB68DCBEBAAA6B7]

/-- Entries 320 to 341 of `romP5Inv`. -/
def romP5InvPart10 : List TableEntry := [
  0x1FA01712E8F0471A1124161312AAA457, 0x194CDF4253F36C14DA8344DC0EEEE9DF, 0x143D7F6843292343E2029D7CD8BF2180, 0x103132B9CF541C364E687DFD7A328133,
  0x19E851294BB9C6BD4A40C9959050CEB8, 0x14B9DA876FC7D2310833D477A6A70BC6, 0x1094AED2BFD30E8DA02976C61EEC096B, 0x1A877E1DFFB81749004257A364ACDBDF,
  0x153931B1996012A0CD01DFB5EA23E319, 0x10FA8E27ADE6754D70CE4C91881CB5AE, 0x1B2A7D0C4970BBAF1AE3ADB5A69455E2, 0x15BB973D078D62F27BE957C4854377E8,
  0x1162DF64060AB58EC987796A0435F987, 0x1BD1656CD67788E475A58F1006BCC271, 0x16411DF0AB92D3E9F7B7A5A66BCA3527, 0x11CDB18D560F0FEE5FC61E1EBCA1C41F,
  0x1C7C4F4889B1B316FFA363646102D365, 0x16C9D906D48E28DF32E91C504D9BDC51, 0x123B140576D820B28F20E37371497D0E, 0x1D2B533BF159CDEA7E9B0585820F2E7C,
  0x1755DC2FF447D7EECBAF379E01A5BECA, 0x12AB168CC36CACBF0958F94B348498A1]

/-- `ROM_P5INV[0..341]`, the listing of R201. -/
def romP5Inv : List TableEntry :=
  romP5InvPart0 ++ romP5InvPart1 ++ romP5InvPart2 ++ romP5InvPart3 ++ romP5InvPart4 ++ romP5InvPart5 ++
  romP5InvPart6 ++ romP5InvPart7 ++ romP5InvPart8 ++ romP5InvPart9 ++ romP5InvPart10

end Sys2Proof.Machine
end

