-- ==== Sys2Proof/Machine/RomCompressed.lean ====
section
/-! DEFINITION. The table ROM of the layout `COMPRESSED` (10_state.md R26, R29; 42_pow5_table.md R171): the listings of
45_compressed_values.md R202 to R206. Constants: nothing writes them (20_memory.md R42, log entry 1). -/

namespace Sys2Proof.Machine

/-- `ROM_BASE[0..25]`, the listing of R202. -/
def romBase : List U64 := [
  0x0000000000000001, 0x0000000000000005, 0x0000000000000019, 0x000000000000007D,
  0x0000000000000271, 0x0000000000000C35, 0x0000000000003D09, 0x000000000001312D,
  0x000000000005F5E1, 0x00000000001DCD65, 0x00000000009502F9, 0x0000000002E90EDD,
  0x000000000E8D4A51, 0x0000000048C27395, 0x000000016BCC41E9, 0x000000071AFD498D,
  0x0000002386F26FC1, 0x000000B1A2BC2EC5, 0x000003782DACE9D9, 0x00001158E460913D,
  0x000056BC75E2D631, 0x0001B1AE4D6E2EF5, 0x000878678326EAC9, 0x002A5A058FC295ED,
  0x00D3C21BCECCEDA1, 0x0422CA8B0A00A425]

/-- `ROM_SPLIT[0..12]`, the listing of R203. -/
def romSplit : List TableEntry := [
  0x10000000000000000000000000000000, 0x14ADF4B7320334B90000000000000000, 0x1ABA4714957D300D0E549208B31ADB10, 0x1145B7E285BF98F56DC6AD264D8F0866,
  0x1652EFDC6018A1FCEB1DBD923D8596CA, 0x1CDA62055B2D9D83B4C1B80B22AE923C, 0x12A5568B9F52F4165BB28B4E8F7E4C30, 0x1819651531F9E78FF08AED437682D4FB,
  0x1F25C186A6F04C28B4EE134AD99BF150, 0x1420EB449C8842E616499ECB70C25F03, 0x1A03FDE214CAF08585A56EAD360865B0, 0x10CFEB353A97DAD8093DB1D57999890B,
  0x15BAAF44FA52673ECF38BB735E3F36AC]

/-- `ROM_SPLITINV[0..14]`, the listing of R204. -/
def romSplitInv : List TableEntry := [
  0x20000000000000000000000000000001, 0x18C240C4AECB13BB52A6C95FC0655034, 0x1327FC58DA0F6FF57CA8D50071DFC806, 0x1DA48CE468E7C7026520247D3556476E,
  0x16EF5B40C2FC77796139CDD76802E6E9, 0x11BEBDF578B2F391F951A7FF43DE8C79, 0x1B758D848FAC54B07BE8BEE8D6E957E8, 0x153EDA614071A3B78BD3F9E999A423EA,
  0x10701BD527B4978C0848F973CB3EE3CE, 0x196FBB9BB44DB44D153285EBB9EFBFA2, 0x13AE3591F5B4D936ADEEE7F86C07B696, 0x1E74404F3DAADA914D686A4EAF182222,
  0x17900EA4FDA7C25798C0A106E09EBD9F, 0x123B140576D820B28F20E37371497D0E, 0x1C35F4275F7A29ADB043138134743D85]

/-- The packed words of `ROM_OFFS[0..325]`, sixteen 2-bit entries a word, least significant first (R205, R177). -/
def romOffsWords : List (BitVec 32) := [
  0x00000000, 0x00000000, 0x00000000, 0x00000000, 0x40000000, 0x59695995, 0x55545555,
  0x56555515, 0x41150504, 0x40555410, 0x44555145, 0x44504540, 0x45555550, 0x40004000,
  0x96440440, 0x55565565, 0x54454045, 0x40154151, 0x55559155, 0x51405555, 0x00000105]

/-- The packed words of `ROM_OFFSINV[0..341]` (R206, R177). -/
def romOffsInvWords : List (BitVec 32) := [
  0x54544554, 0x04055545, 0x10041000, 0x00400414, 0x40010000, 0x41155555, 0x00000454,
  0x00010044, 0x40000000, 0x44000041, 0x50454450, 0x55550054, 0x51655554, 0x40004000,
  0x01000001, 0x00010500, 0x51515411, 0x05555554, 0x50411500, 0x40040000, 0x05040110,
  0x00000000]

end Sys2Proof.Machine
end

