-- ==== Sys2Proof/Machine/Tables.lean ====
section
/-! DEFINITION. The power-of-five table: the functions that define its entries (42_pow5_table.md R161, R162), the two
physical layouts (R171 to R177), the one read primitive (20_memory.md R41), the bytes of an entry (R44), and the two checks the spec
words over all indices: the ranges (R165) and the cross-validation (R178). -/

namespace Sys2Proof.Machine

/-- `P5(i)` (R161): 5^i with its leading 1 moved to bit 124, the rest cut off. -/
def pow5Entry (i : Nat) : Nat :=
  if bitlen (5 ^ i) ≤ p5BitCount then 5 ^ i * 2 ^ (p5BitCount - bitlen (5 ^ i))
  else 5 ^ i / 2 ^ (bitlen (5 ^ i) - p5BitCount)

/-- `P5I(i)` (R162). -/
def pow5InvEntry (i : Nat) : Nat := 2 ^ (bitlen (5 ^ i) - 1 + p5BitCount) / 5 ^ i + 1

/-- The entry a space defines for an index, whatever the layout (R161, R162). -/
def spaceEntry : Space → Nat → Nat
  | .p5, i => pow5Entry i
  | .p5inv, i => pow5InvEntry i

/-- Entry `i` of a packed table of 2-bit offsets (R177). -/
def packedOffset (words : List (BitVec 32)) (i : Nat) : Option Nat :=
  (words[i / 16]?).map fun w => slice w.toNat (2 * (i % 16)) 2

/-- The product of a residual power and a split entry, shifted right (R172: `(ROM_BASE[r] * E) div 2^delta`). -/
def splitProduct (m : U64) (entry delta : Nat) : Nat := m.toNat * entry / 2 ^ delta

/-- Compressed `pow5(i)` (R172, with the shortcut R175). -/
def compressedPow5 (i : Nat) : Option TableEntry :=
  let k := i / splitStride
  let r := i % splitStride
  match romSplit[k]?, romBase[r]?, packedOffset romOffsWords i with
  | some entry, some m, some off =>
    if r = 0 then some entry
    else some (BitVec.ofNat 128 (splitProduct m entry.toNat (pow5Bits i - pow5Bits (splitStride * k)) + off))
  | _, _, _ => none

/-- Compressed `pow5Inv(i)` (R176, with the shortcut R175). -/
def compressedPow5Inv (i : Nat) : Option TableEntry :=
  let k := (i + 25) / splitStride
  let r := splitStride * k - i
  match romSplitInv[k]?, romBase[r]?, packedOffset romOffsInvWords i with
  | some entry, some m, some off =>
    if r = 0 then some entry
    else some (BitVec.ofNat 128
      (splitProduct m (entry.toNat - 1) (pow5Bits (splitStride * k) - pow5Bits i) + 1 + off))
  | _, _, _ => none

/-- The paired-word form of the product of R172, step for step as 42_pow5_table.md R173 writes it: the 192-bit value
`{top, sum, low0}`. Not used by any operation (only the value of `raw` matters, R173). -/
def pairedProduct (m low high : U64) : Nat :=
  let low0 := m.toNat * low.toNat % 2 ^ 64
  let high0 := m.toNat * low.toNat / 2 ^ 64
  let low1 := m.toNat * high.toNat % 2 ^ 64
  let high1 := m.toNat * high.toNat / 2 ^ 64
  let sum := (high0 + low1) % 2 ^ 64
  let carry := if 2 ^ 64 ≤ high0 + low1 then 1 else 0
  let top := (high1 + carry) % 2 ^ 64
  (top * 2 ^ 64 + sum) * 2 ^ 64 + low0

/-- The entry a layout holds for an index, from its physical arrays (R26, R171). -/
def layoutEntry : Layout → Space → Nat → Option TableEntry
  | .direct, .p5, i => romP5[i]?
  | .direct, .p5inv, i => romP5Inv[i]?
  | .compressed, .p5, i => compressedPow5 i
  | .compressed, .p5inv, i => compressedPow5Inv i

/-- `MemRead(space, i, 128)` (20_memory.md R41), for `i` inside the range of R40 and for no other index; R46: one whole entry. -/
def memRead (l : Layout) (sp : Space) (i : Nat) : Option TableEntry :=
  if maxIndex sp < i then none else layoutEntry l sp i

/-- The 16 bytes of an entry, least significant first (20_memory.md R44, 92_eei_decisions.md D23; log entry 11). -/
def entryBytes (t : TableEntry) : List Byte := bytesOf 16 t.toNat

/-- The entry a string of bytes holds; none for a string of any other length. -/
def entryOfBytes (bs : List Byte) : Option TableEntry :=
  if bs.length = 16 then some (BitVec.ofNat 128 (numberOfBytes bs)) else none

/-- R165 for one index: the range of the entry, the one entry of 126 bits, and `high < 2^62`. -/
def entryInRange (sp : Space) (i : Nat) : Bool :=
  match sp with
  | .p5 => Nat.ble (2 ^ 124) (pow5Entry i) && Nat.blt (pow5Entry i) (2 ^ 125) && Nat.blt (pow5Entry i / 2 ^ 64) (2 ^ 62)
  | .p5inv => Nat.blt (2 ^ 124) (pow5InvEntry i) && Nat.ble (pow5InvEntry i) (2 ^ 125 + 1) &&
      (i == 0 || Nat.blt (pow5InvEntry i) (2 ^ 125)) && Nat.blt (pow5InvEntry i / 2 ^ 64) (2 ^ 62)

/-- R165: the ranges of all entries of a space. -/
def entryRanges (sp : Space) : Bool := (List.range (maxIndex sp + 1)).all (entryInRange sp)

/-- The arrays of a layout give the defined entry for every index of a space. -/
def layoutHoldsEntries (l : Layout) (sp : Space) : Bool :=
  (List.range (maxIndex sp + 1)).all fun i => layoutEntry l sp i == some (BitVec.ofNat 128 (spaceEntry sp i))

/-- R178, the one decidable statement of the cross-validation: for all `i <= 325`, R172 equals `P5(i)`, and for all `i <= 341`, R176
equals `P5I(i)`. -/
def crossValidation : Bool := layoutHoldsEntries .compressed .p5 && layoutHoldsEntries .compressed .p5inv

end Sys2Proof.Machine
end

