-- ==== Sys2Proof/Machine/Ops.lean ====
section
/-! DEFINITION. The named operations on State. A transaction ends in one of two ways: `finish` (00_scope.md R10, `RSP.f <- v`,
`status <- OK`) or `raise` (`raise <Status>`, 60_exceptions.md R251). `raise` is all there is to an exception on DMP5: it saves
no pc and no status, changes no mode and transfers control nowhere (R259), and there is no return from one (R260). -/

namespace Sys2Proof.Machine

/-- The transaction on the selected port ends with a response: it is handed to the caller, the command word is gone (neither is
retained, 10_state.md R21, R27), every other port is as it was (R266). -/
def State.deliver (s : State) (r : Response) : State :=
  { s with ports := s.ports.set s.sel none, out := some { port := s.sel, rsp := r } }

/-- A step that performs no transaction hands nothing to the caller, and no earlier response is there to read (R21, R27, R281). -/
def State.deliverNothing (s : State) : State := { s with out := none }

/-- R257: a refused command is a fault of the run, never cleared; the first one stays (log entry 8). -/
def State.recordFault (s : State) (st : Status) : State :=
  { s with runFault := some (s.runFault.getD st) }

/-- The response to a refused command: the code, and 0 in every other field (R251). -/
def Response.refusal (st : Status) : Response := { status := st }

/-- The transaction ends with `status = OK`. -/
def finish (r : Response) (s : State) : Outcome := .next (s.deliver r)

/-- `raise <Status>` (00_scope.md R10, 60_exceptions.md R251): the whole of taking an exception on DMP5. -/
def raise (st : Status) (s : State) : Outcome := .next ((s.recordFault st).deliver (Response.refusal st))

/-- Reset (70_reset_and_hazards.md R281, R282): every transaction in progress is abandoned without a response, and no response is
handed to the caller. The ROM, the layout and the number of ports are as before (10_state.md R29). -/
def State.abandonAll (s : State) : State :=
  { s with ports := s.ports.map fun _ => none, out := none }

/-- The caller presents a command word on port `p` (00_scope.md R11) and that port's transaction is the next to be performed
(an act of the caller, not of the block). Where a transaction is still in progress on the port, the spec is silent on what becomes
of it: DESIGN CHOICE, the port keeps the word it has and does not take the new one (log entry 13). -/
def State.present (s : State) (p : Nat) (w : CmdWord) : State :=
  { s with ports := s.ports.modify p fun c => some (c.getD w), sel := p, out := none }

/-- The block can take a transaction on port `p`: the port exists, no transaction is in progress there ("each port handles one
transaction at a time", R266), and reset is not asserted. -/
def State.Ready (s : State) (p : Nat) : Prop := p < s.ports.length ∧ s.command p = none ∧ s.rst = false

end Sys2Proof.Machine
end

