-- ==== Sys2Proof/Machine/Decomposer.lean ====
section
/-! DEFINITION. The decomposer family: `DEC32` and `DEC64` (40_decomposer.md). -/

namespace Sys2Proof.Machine

/-- `m2` by class (R94, R95, R96): 0 for zero and infinity, the mantissa field for a NaN or a subnormal, and the field with
the implicit leading bit for a normal. -/
def significand (f : Format) (c : Cls) (mf : Nat) : Nat :=
  match c with
  | .zero => 0
  | .inf => 0
  | .nan => mf
  | .subnormal => mf
  | .normal => 2 ^ mantissaWidth f + mf

/-- `e2` by class (R94, R95, R96). -/
def exponent (f : Format) (c : Cls) (ef : Nat) : Int :=
  match c with
  | .zero => 0
  | .inf => specialExp
  | .nan => specialExp
  | .subnormal => e2Sub f
  | .normal => (ef : Int) - e2Off f

/-- The `OK` response of the decomposer to a pattern (R100, R101). -/
def decompose (f : Format) (bits : Nat) : Response :=
  let ef := efOf f bits
  let mf := mfOf f bits
  let c := classify f ef mf
  let m2 := significand f c mf
  { status := .ok, r0 := BitVec.ofNat 64 m2, r1 := 0, e := toI32 (exponent f c ef), sign := signOf f bits, cls := some c,
    mmShift := mmShiftOf ef mf, acceptBounds := acceptBoundsOf m2 }

/-- `DEC32` (R100). -/
def execDec32 (o : Fields) (s : State) : Outcome :=
  if onlyA o && upperClear o then finish (decompose .binary32 (pattern32 o)) s else raise .badOperand s

/-- `DEC64` (R101). -/
def execDec64 (o : Fields) (s : State) : Outcome :=
  if onlyA o then finish (decompose .binary64 (pattern64 o)) s else raise .badOperand s

end Sys2Proof.Machine
end

