-- ==== Sys2Proof/Machine/LogHelper.lean ====
section
/-! DEFINITION. The logarithm helpers: `POW5BITS`, `LOG10POW2` and `LOG10POW5` (42_pow5_table.md, section 2). -/

namespace Sys2Proof.Machine

/-- A helper on `CMD.a`: refused for an unused field that is not 0 or an argument outside the domain (30_encoding.md R65
step 2, R159), else its value in `r0`. -/
def helper (f : Nat → Nat) (o : Fields) (s : State) : Outcome :=
  if onlyA o && helperInDomain o then finish { r0 := BitVec.ofNat 64 (f o.a.toNat), r1 := 0 } s
  else raise .badOperand s

/-- `POW5BITS` (R151, R153). -/
def execPow5bits (o : Fields) (s : State) : Outcome := helper pow5Bits o s

/-- `LOG10POW2` (R154): the value is not adjusted (R156). -/
def execLog10pow2 (o : Fields) (s : State) : Outcome := helper log10Pow2 o s

/-- `LOG10POW5` (R157): the value is not adjusted (R156). -/
def execLog10pow5 (o : Fields) (s : State) : Outcome := helper log10Pow5 o s

end Sys2Proof.Machine
end

