-- ==== Sys2Proof/Machine/Multiplier.lean ====
section
/-! DEFINITION. The multiplier family: `MUL64`, `MULHI64` and `MULSHIFT64` (41_multiply_shift.md). All unsigned (R129). -/

namespace Sys2Proof.Machine

/-- `MUL64` (R121). -/
def execMul64 (o : Fields) (s : State) : Outcome :=
  if onlyAB o then
    finish { r0 := lowWord (o.a.toNat * o.b.toNat), r1 := highWord (o.a.toNat * o.b.toNat) } s
  else raise .badOperand s

/-- `MULHI64` (R122). -/
def execMulhi64 (o : Fields) (s : State) : Outcome :=
  if onlyAB o then finish { r0 := highWord (o.a.toNat * o.b.toNat), r1 := 0 } s else raise .badOperand s

/-- `MULSHIFT64` (R124): no must-be-zero field, the shift is the only check. -/
def execMulshift64 (o : Fields) (s : State) : Outcome :=
  if shiftInDomain o then
    finish { r0 := lowWord (mulShift o.a.toNat o.b.toNat o.c.toNat o.sh.toNat),
             r1 := highWord (mulShift o.a.toNat o.b.toNat o.c.toNat o.sh.toNat) } s
  else raise .badShift s

end Sys2Proof.Machine
end

