-- ==== Sys2Proof/Machine/TableLoad.lean ====
section
/-! DEFINITION. The table loads: `POW5` and `POW5INV` (42_pow5_table.md R163, R164). The index is the whole of `CMD.a`, so an
index outside the range is refused, never wrapped (60_exceptions.md R254). -/

namespace Sys2Proof.Machine

/-- Load entry `CMD.a` of a table space: low word in `r0`, high word in `r1` (20_memory.md R43). -/
def loadEntry (sp : Space) (o : Fields) (s : State) : Outcome :=
  if onlyA o then
    match memRead s.layout sp o.a.toNat with
    | some t => finish { r0 := t.extractLsb' 0 64, r1 := t.extractLsb' 64 64 } s
    | none => raise .badIndex s
  else raise .badOperand s

/-- `POW5` (R163). -/
def execPow5 (o : Fields) (s : State) : Outcome := loadEntry .p5 o s

/-- `POW5INV` (R164). -/
def execPow5inv (o : Fields) (s : State) : Outcome := loadEntry .p5inv o s

end Sys2Proof.Machine
end

