-- ==== Sys2Proof/Machine/Dispatch.lean ====
section
/-! DEFINITION. One arm per operation (30_encoding.md R66), each one call of its meaning. -/

namespace Sys2Proof.Machine

def exec (i : Instr) (s : State) : Host.Outcome State Fault Refusal :=
  match i with
  | .dec32 o => Sys2Proof.Machine.execDec32 o s
  | .dec64 o => Sys2Proof.Machine.execDec64 o s
  | .mul64 o => Sys2Proof.Machine.execMul64 o s
  | .mulhi64 o => Sys2Proof.Machine.execMulhi64 o s
  | .mulshift64 o => Sys2Proof.Machine.execMulshift64 o s
  | .pow5bits o => Sys2Proof.Machine.execPow5bits o s
  | .log10pow2 o => Sys2Proof.Machine.execLog10pow2 o s
  | .log10pow5 o => Sys2Proof.Machine.execLog10pow5 o s
  | .pow5 o => Sys2Proof.Machine.execPow5 o s
  | .pow5inv o => Sys2Proof.Machine.execPow5inv o s

end Sys2Proof.Machine
end

