-- ==== Sys2Proof/Machine/Fetch.lean ====
section
/-! DEFINITION. Taking the command word of the next transaction from its port, and what becomes of one that names no operation.
DMP5 fetches nothing (10_state.md R22): the caller presents the word. -/

namespace Sys2Proof.Machine

/-- What `sel` and the ports offer the next step. -/
inductive Offer where
  /-- `sel` names no port of the block. -/
  | absent
  /-- The selected port has no transaction in progress. -/
  | idle
  /-- The selected port's command word. -/
  | command (w : CmdWord)
deriving DecidableEq, Repr

/-- The offer of the selected port. -/
def State.offer (s : State) : Offer :=
  match s.ports[s.sel]? with
  | none => .absent
  | some none => .idle
  | some (some w) => .command w

/-- A command word whose `op` names no operation is answered `BAD_OP`, whatever its other fields hold (30_encoding.md R67,
60_exceptions.md R252). -/
def refuseCommand (e : DecodeError) (s : State) : Outcome :=
  match e with
  | .badOp _ => raise .badOp s

/-- Place a command word on port 0 and select it: the port is made if there is none, and reset released. This is the host's loader
(log entry 6) and no act of a caller: DESIGN CHOICE, where a transaction is in progress on port 0 its command word is replaced and
gets no response, a case of which the spec says nothing (log entry 13). -/
def State.placeCommand (s : State) (w : CmdWord) : State :=
  { s with ports := some w :: s.ports.drop 1, out := none, sel := 0, rst := false }

end Sys2Proof.Machine
end

