-- ==== Sys2Proof/Machine/Step.lean ====
section
/-! DEFINITION. One step: one whole transaction (00_scope.md R11, 93_implementation_defined.md U14) on the port the caller selects.
Nothing is fetched and nothing advances (10_state.md R22): a step adds to `exec` only the taking of the command word. -/

namespace Sys2Proof.Machine

/-- One step. While reset is asserted every transaction in progress is abandoned (70_reset_and_hazards.md R282); a port without a
transaction leaves the block waiting (R22); else the command is answered. A step's response is in the state it leads to and gone
with the next step (10_state.md R21). -/
def step (s : State) : Host.Outcome State Fault Refusal :=
  if s.rst then .next s.abandonAll
  else
    match s.offer with
    | .absent => .fault .absentPort
    | .idle => .next s.deliverNothing
    | .command w =>
      match decodeWord w with
      | .ok i => exec i s
      | .error e => refuseCommand e s

/-- The state whose next step takes the given command word, which is placed on port 0 (log entries 6 and 13). Bits from `nbits` up,
and above a command's 208, are 0. -/
def State.withFetchWord (s : State) (nbits w : Nat) : State :=
  s.placeCommand (BitVec.ofNat 208 (w % 2 ^ nbits))

end Sys2Proof.Machine
end

