-- ==== Sys2Proof/Machine/ResponseWord.lean ====
section
/-! DEFINITION. The response word, format `RSP176` (30_encoding.md R63): its bits, its bytes (20_memory.md R44),
and reading them back. -/

namespace Sys2Proof.Machine

/-- The code values of R250. -/
def Status.code : Status → BitVec 4
  | .ok => 0
  | .badOp => 1
  | .badOperand => 2
  | .badIndex => 3
  | .badShift => 4

/-- The status of a code; 5 to 15 are never produced (R63). -/
def Status.ofCode (v : BitVec 4) : Option Status :=
  match v with
  | 0#4 => some .ok
  | 1#4 => some .badOp
  | 2#4 => some .badOperand
  | 3#4 => some .badIndex
  | 4#4 => some .badShift
  | _ => none

/-- The code values of R63 and 40_decomposer.md R93; 0 where there is no class. -/
def clsCode : Option Cls → BitVec 3
  | none => 0
  | some .zero => 1
  | some .subnormal => 2
  | some .normal => 3
  | some .inf => 4
  | some .nan => 5

/-- The class of a code: none for 0 (no class), and no answer for 6 and 7, which are never produced (R63). -/
def clsOfCode (v : BitVec 3) : Option (Option Cls) :=
  match v with
  | 0#3 => some none
  | 1#3 => some (some .zero)
  | 2#3 => some (some .subnormal)
  | 3#3 => some (some .normal)
  | 4#3 => some (some .inf)
  | 5#3 => some (some .nan)
  | _ => none

/-- The 176 bits of a response, from bit 175 down (R63). -/
def Response.word (r : Response) : RspWord :=
  (0 : BitVec 4) ++ r.status.code ++ (0 : BitVec 2) ++ BitVec.ofBool r.acceptBounds ++ BitVec.ofBool r.mmShift
    ++ clsCode r.cls ++ BitVec.ofBool r.sign ++ r.e ++ r.r1 ++ r.r0

/-- The response a word of 176 bits holds; none for a word no response has (a bit that is always 0 is 1, or a code that is
never produced). -/
def Response.ofWord (w : RspWord) : Option Response :=
  if w.extractLsb' 172 4 = 0 ∧ w.extractLsb' 166 2 = 0 then
    match Status.ofCode (w.extractLsb' 168 4), clsOfCode (w.extractLsb' 161 3) with
    | some st, some c =>
      some { status := st, r0 := w.extractLsb' 0 64, r1 := w.extractLsb' 64 64, e := w.extractLsb' 128 32,
             sign := w.getLsbD 160, cls := c, mmShift := w.getLsbD 164, acceptBounds := w.getLsbD 165 }
    | _, _ => none
  else none

/-- The 22 bytes of a response, least significant first (20_memory.md R44, 92_eei_decisions.md D23; log entry 11). -/
def Response.bytes (r : Response) : List Byte := bytesOf 22 r.word.toNat

/-- The response a string of bytes holds; none for a string of any other length. -/
def Response.ofBytes (bs : List Byte) : Option Response :=
  if bs.length = 22 then Response.ofWord (BitVec.ofNat 176 (numberOfBytes bs)) else none

/-- The response word port `p` carries (R63). -/
def State.responseWord (s : State) (p : Nat) : Option RspWord := (s.response p).map Response.word

end Sys2Proof.Machine
end

