-- ==== Sys2Proof/Machine/HostLine.lean ====
section
/-! DEFINITION. The host's spelling of commands (30_encoding.md R71) and the two pseudo-operations (R72). This is spelling and not
hardware (92_eei_decisions.md D31): a line expands to one command of Syntax.lean, and no operation of the block reads it. -/

namespace Sys2Proof.Machine

/-- A line: the operands, in the order `a`, `b`, `c`, `sh`, that R62 lets the operation read. -/
inductive Line where
  | dec32 (bits : BitVec 32)
  | dec64 (bits : U64)
  | mul64 (a b : U64)
  | mulhi64 (a b : U64)
  | mulshift64 (m mulLow mulHigh : U64) (shift : BitVec 8)
  | pow5bits (e : U64)
  | log10pow2 (e : U64)
  | log10pow5 (e : U64)
  | pow5 (i : U64)
  | pow5inv (i : U64)
  /-- `MULSHIFT64T m, T, s` (R72), `T` a table result bound as two words. -/
  | mulshift64T (m : U64) (t : TableEntry) (shift : BitVec 8)
  /-- `DEC 32, bits` (R72). -/
  | decShort (bits : BitVec 32)
  /-- `DEC 64, bits` (R72). -/
  | decLong (bits : U64)
deriving DecidableEq, Repr

/-- The command of a line: every field the line does not name is 0 (R71); the pseudo-operations expand (R72). -/
def Line.instr : Line → Instr
  | .dec32 bits => .dec32 { a := bits.setWidth 64 }
  | .dec64 bits => .dec64 { a := bits }
  | .mul64 a b => .mul64 { a := a, b := b }
  | .mulhi64 a b => .mulhi64 { a := a, b := b }
  | .mulshift64 m lo hi sh => .mulshift64 { a := m, b := lo, c := hi, sh := sh }
  | .pow5bits e => .pow5bits { a := e }
  | .log10pow2 e => .log10pow2 { a := e }
  | .log10pow5 e => .log10pow5 { a := e }
  | .pow5 i => .pow5 { a := i }
  | .pow5inv i => .pow5inv { a := i }
  | .mulshift64T m t sh => .mulshift64 { a := m, b := t.extractLsb' 0 64, c := t.extractLsb' 64 64, sh := sh }
  | .decShort bits => .dec32 { a := bits.setWidth 64 }
  | .decLong bits => .dec64 { a := bits }

/-- The values the names after `->` are bound to, in the order of R71 and R64; `e` is bound as the signed integer it encodes. A
response whose status is not `OK` binds nothing. -/
def boundValues (i : Instr) (r : Response) : List Int :=
  if r.status = .ok then
    match i with
    | .dec32 _ | .dec64 _ =>
      [(r.r0.toNat : Int), r.e.toInt, (r.sign.toNat : Int), ((clsCode r.cls).toNat : Int), (r.mmShift.toNat : Int),
        (r.acceptBounds.toNat : Int)]
    | .mul64 _ | .mulshift64 _ | .pow5 _ | .pow5inv _ => [(r.r0.toNat : Int), (r.r1.toNat : Int)]
    | .mulhi64 _ | .pow5bits _ | .log10pow2 _ | .log10pow5 _ => [(r.r0.toNat : Int)]
  else []

/-- The `n` hexadecimal digits of a number, the most significant first. -/
def hexDigits : Nat → Nat → List Char
  | 0, _ => []
  | n + 1, v => hexDigits n (v / 16) ++ [(['0', '1', '2', '3', '4', '5', '6', '7', '8', '9', 'A', 'B', 'C', 'D', 'E', 'F'][v % 16]?).getD '0']

/-- The 52 hexadecimal digits of a line's command word, `op` first (R71). -/
def Line.hex (l : Line) : List Char := hexDigits 52 (encodeWord l.instr).toNat

end Sys2Proof.Machine
end

