-- ==== Sys2Proof/WellFormed.lean ====
section
/-! DEFINITION. The legal commands: the table of 30_encoding.md R62 row by row, written apart from the checks the
meanings make (Machine/Operands.lean, Machine/Tables.lean), so that `the response is OK exactly for the legal commands`
says something. -/

namespace Sys2Proof

/-- R62: the row reads `a` only; `b`, `c` and `sh` must be 0. -/
def Fields.otherThanAZero (o : Fields) : Bool := o.b == 0 && o.c == 0 && o.sh == 0

/-- R62: the row reads `a` and `b`; `c` and `sh` must be 0. -/
def Fields.otherThanABZero (o : Fields) : Bool := o.c == 0 && o.sh == 0

/-- R62, row `DEC32`: `a[63:32]` must be 0. -/
def Fields.upperHalfZero (o : Fields) : Bool := decide (o.a.toNat < 2 ^ 32)

/-- R62, rows `POW5BITS`, `LOG10POW2`, `LOG10POW5`: `e`, legal 0 to 65535. -/
def Fields.helperArgumentLegal (o : Fields) : Bool := decide (o.a.toNat ≤ 65535)

/-- R62, row `POW5`: index legal 0 to 325. -/
def Fields.pow5IndexLegal (o : Fields) : Bool := decide (o.a.toNat ≤ 325)

/-- R62, row `POW5INV`: index legal 0 to 341. -/
def Fields.pow5InvIndexLegal (o : Fields) : Bool := decide (o.a.toNat ≤ 341)

/-- R62, row `MULSHIFT64`: shift legal 65 to 127. -/
def Fields.shiftLegal (o : Fields) : Bool := decide (65 ≤ o.sh.toNat) && decide (o.sh.toNat ≤ 127)

/-- A legal command (30_encoding.md R62). -/
def Instr.wellFormed : Instr → Bool
  | .dec32 o => o.otherThanAZero && o.upperHalfZero
  | .dec64 o => o.otherThanAZero
  | .mul64 o => o.otherThanABZero
  | .mulhi64 o => o.otherThanABZero
  | .mulshift64 o => o.shiftLegal
  | .pow5bits o => o.otherThanAZero && o.helperArgumentLegal
  | .log10pow2 o => o.otherThanAZero && o.helperArgumentLegal
  | .log10pow5 o => o.otherThanAZero && o.helperArgumentLegal
  | .pow5 o => o.otherThanAZero && o.pow5IndexLegal
  | .pow5inv o => o.otherThanAZero && o.pow5InvIndexLegal

/-- The command is legal. -/
abbrev WellFormed (i : Instr) : Prop := i.wellFormed = true

end Sys2Proof
end

