-- ==== Sys2Proof/Safety.lean ====
section
/-! DEFINITION. The terms claims are stated in: runs without a recorded fault (60_exceptions.md R257), what every response on a port
looks like (30_encoding.md R63, R64; R251; 40_decomposer.md R102), the invariant of the machine, a caller's transactions, and the
rational value of a float (R97). -/

namespace Sys2Proof.Machine

/-- The state after the selected port's transaction was answered with `r` and nothing else happened: its command word is gone, it
carries the response, every other port and field is as before. The words claims use for the next state of an operation. -/
def State.answered (s : State) (r : Response) : State :=
  { s with ports := s.ports.set s.sel none, out := some { port := s.sel, rsp := r } }

/-- No command of the run so far was refused (R257). -/
def State.Clean (s : State) : Prop := s.runFault = none

/-- The fields of a response the decomposer never wrote: no class and none of the four small outputs (R64). -/
def Response.NoFloat (r : Response) : Prop :=
  r.cls = none ∧ r.e = 0 ∧ r.sign = false ∧ r.mmShift = false ∧ r.acceptBounds = false

/-- What `r0` and `e` hold by class (R94, R95, R102). -/
def clsRange (c : Cls) (m2 : Nat) (e2 : Int) : Prop :=
  match c with
  | .zero => m2 = 0 ∧ e2 = 0
  | .subnormal => (1 ≤ m2 ∧ m2 < 2 ^ 23 ∧ e2 = -151) ∨ (1 ≤ m2 ∧ m2 < 2 ^ 52 ∧ e2 = -1076)
  | .normal => (2 ^ 23 ≤ m2 ∧ m2 < 2 ^ 24 ∧ -151 ≤ e2 ∧ e2 ≤ 102) ∨ (2 ^ 52 ≤ m2 ∧ m2 < 2 ^ 53 ∧ -1076 ≤ e2 ∧ e2 ≤ 969)
  | .inf => m2 = 0 ∧ e2 = 2147483647
  | .nan => 1 ≤ m2 ∧ m2 < 2 ^ 52 ∧ e2 = 2147483647

/-- A response the block can give: a refusal is its code and zeros (R251), a decomposer's response keeps to the ranges of R102 with
`r1 = 0`, and any other response holds no float outputs (R64). -/
def Response.Possible (r : Response) : Prop :=
  (r.status ≠ .ok → r = { status := r.status }) ∧
  (∀ c, r.cls = some c → r.r1 = 0 ∧ clsRange c r.r0.toNat r.e.toInt) ∧
  (r.cls = none → r.NoFloat)

/-- The invariant of the machine: a port is selected, a response is on its way only on a port of the block where no transaction
is in progress, it is a possible one, the recorded fault is an error code, and while none is recorded no refusal is on
its way. -/
structure State.Inv (s : State) : Prop where
  selected : s.sel < s.ports.length
  completed : ∀ (p : Nat) (r : Response), s.response p = some r → p < s.ports.length ∧ s.command p = none
  possible : ∀ (p : Nat) (r : Response), s.response p = some r → r.Possible
  record : s.runFault ≠ some .ok
  clean : s.Clean → ∀ (p : Nat) (r : Response), s.response p = some r → r.status = .ok

/-- What the caller holds after presenting a command on a port and letting the block perform one step. -/
def State.transact (s : State) (p : Nat) (w : CmdWord) : Option (State × Response) :=
  match step (s.present p w) with
  | .next t => (t.response p).map fun r => (t, r)
  | .fault _ => none
  | .refused _ => none

/-- The responses a caller receives for a list of transactions, one after another, each on the port it names. -/
def State.answers (s : State) : List (Nat × CmdWord) → List (Option Response)
  | [] => []
  | (p, w) :: rest =>
    match s.transact p w with
    | some (t, r) => some r :: t.answers rest
    | none => none :: s.answers rest

/-- The significand of a finite pattern, with the implicit leading bit of a normal (R96, 93_implementation_defined.md G1). -/
def floatSignificand (f : Format) (bits : Nat) : Nat :=
  if efOf f bits = 0 then mfOf f bits else 2 ^ mantissaWidth f + mfOf f bits

/-- The value of a finite pattern by IEEE 754 (R97): `(-1)^sign * m * 2^(max(ef,1) - BIAS - MW)`. -/
def floatValue (f : Format) (bits : Nat) : ℚ :=
  (if signOf f bits then -1 else 1) * (floatSignificand f bits : ℚ) *
    (2 : ℚ) ^ ((max (efOf f bits) 1 : ℤ) - (bias f : ℤ) - (mantissaWidth f : ℤ))

/-- The pattern is finite: its exponent field is not all ones (R93). -/
def IsFinite (f : Format) (bits : Nat) : Prop := efOf f bits ≠ efMax f

end Sys2Proof.Machine
end

