-- ==== Sys2Proof/Certificates/Slice0/Obligations.lean ====
section
/-! DEFINITION. The statements for the provers. Each docstring names the rule it formalises, and says so where a clause is the
model's choice or an inference the spec marks as its own. An `OK` answer is written as the whole next state: the selected port
loses its command word, the response is handed to the caller, and nothing else in State changes (`State.answered`, Safety.lean); a
refusal is the same but for the model's record (`{ t with runFault := s.runFault }`, log entry 8). A response is written by the
fields that are not 0: `{ status := .badOp }` is the code and 0 in every other field (State.lean). -/

open Sys2Proof Sys2Proof.Machine

/-! ### Encoding -/

/-- Words written out from the layout of 30_encoding.md R61 and the codes of R66 decode to the operation they name, every field in
its place; two reserved codes are refused (R67). -/
def Obligations.WrittenWordsDecode : Prop :=
  decodeWord 0x010000000000000000000000000000000000000000003F800000 = .ok (.dec32 { a := 0x3F800000 }) ∧
  decodeWord 0x0200000000000000000000000000000000004480F0CF064DD592 = .ok (.dec64 { a := 0x4480F0CF064DD592 }) ∧
  decodeWord 0x100000000000000000000FEDCBA987654321123456789ABCDEF0 =
    .ok (.mul64 { a := 0x123456789ABCDEF0, b := 0x0FEDCBA987654321 }) ∧
  decodeWord 0x1140000000000000000000000000000000030000000000000002 = .ok (.mulhi64 { a := 2, b := 3, c := 0, sh := 64 }) ∧
  decodeWord 0x12771A36E2EB1C432CA57A786C226809D4960043C33C19375648 =
    .ok (.mulshift64 { a := 0x0043C33C19375648, b := 0x7A786C226809D496, c := 0x1A36E2EB1C432CA5, sh := 119 }) ∧
  decodeWord 0x2000000000000000000000000000000000000000000000000145 = .ok (.pow5bits { a := 325 }) ∧
  decodeWord 0x2100000000000000000000000000000000000000000000000013 = .ok (.log10pow2 { a := 19 }) ∧
  decodeWord 0x2200000000000000000000000000000000008000000000000000 = .ok (.log10pow5 { a := 0x8000000000000000 }) ∧
  decodeWord 0x3000000000000000000000000000000000010000000000000190 = .ok (.pow5 { a := 400, b := 1 }) ∧
  decodeWord 0x3100000000000000000000000000000000000000000000000155 = .ok (.pow5inv { a := 341 }) ∧
  decodeWord 0 = .error (.badOp 0x00) ∧
  decodeWord 0x3200000000000000000000000000000000000000000000000000 = .error (.badOp 0x32)

/-- Decoding and encoding agree in both directions, for every operation and every value of every field: a command word names an
operation exactly if it is that operation's word (30_encoding.md R60, R61, R66). -/
def Obligations.DecodeIffEncode : Prop :=
  ∀ (w : CmdWord) (i : Instr), decodeWord w = .ok i ↔ encodeWord i = w

/-- 30_encoding.md R66: `op` alone selects the operation, by the codes of the map, and its upper nibble is the family. The fields
are those of R61. -/
def Obligations.OpcodeAloneSelects : Prop :=
  (∀ w : CmdWord,
    let op := w.extractLsb' 200 8
    let o : Fields :=
      { a := w.extractLsb' 0 64, b := w.extractLsb' 64 64, c := w.extractLsb' 128 64, sh := w.extractLsb' 192 8 }
    (op = 0x01 → decodeWord w = .ok (.dec32 o)) ∧ (op = 0x02 → decodeWord w = .ok (.dec64 o)) ∧
    (op = 0x10 → decodeWord w = .ok (.mul64 o)) ∧ (op = 0x11 → decodeWord w = .ok (.mulhi64 o)) ∧
    (op = 0x12 → decodeWord w = .ok (.mulshift64 o)) ∧ (op = 0x20 → decodeWord w = .ok (.pow5bits o)) ∧
    (op = 0x21 → decodeWord w = .ok (.log10pow2 o)) ∧ (op = 0x22 → decodeWord w = .ok (.log10pow5 o)) ∧
    (op = 0x30 → decodeWord w = .ok (.pow5 o)) ∧ (op = 0x31 → decodeWord w = .ok (.pow5inv o)) ∧
    (op ∉ [0x01, 0x02, 0x10, 0x11, 0x12, 0x20, 0x21, 0x22, 0x30, 0x31] → decodeWord w = .error (.badOp op))) ∧
  ∀ i : Instr, (encodeWord i).extractLsb' 204 4 =
    match i with
    | .dec32 _ | .dec64 _ => 0
    | .mul64 _ | .mulhi64 _ | .mulshift64 _ => 1
    | .pow5bits _ | .log10pow2 _ | .log10pow5 _ => 2
    | .pow5 _ | .pow5inv _ => 3

/-- Little-endian bytes of a command (20_memory.md R44, 92_eei_decisions.md D23): byte `k` holds bits `8k+7:8k`, and the decoder
reads them back. That a string of any other length is refused by name is the model's choice (log entry 11). -/
def Obligations.CommandBytesLittleEndian : Prop :=
  ∀ i : Instr, (encodeBytes i).length = 26 ∧
    (∀ k : Nat, k < 26 → (encodeBytes i)[k]? = some ((encodeWord i).extractLsb' (8 * k) 8)) ∧
    decodeBytes (encodeBytes i) = .ok i ∧
    ∀ bs : List Byte, bs.length ≠ 26 → decodeBytes bs = .error (.badLength bs.length)

/-- 30_encoding.md R63: the bits of a response word, field by field, the bits that are always 0, and the values that are never
produced: in every response of an operation `status` is at most 4, `cls` at most 5, and `cls` is 0 unless it is an `OK` response
of the decomposer. -/
def Obligations.ResponseWordLayout : Prop :=
  (∀ r : Response,
    r.word.extractLsb' 172 4 = 0 ∧
    r.word.extractLsb' 168 4 =
      (match r.status with | .ok => 0 | .badOp => 1 | .badOperand => 2 | .badIndex => 3 | .badShift => 4) ∧
    r.word.extractLsb' 166 2 = 0 ∧ r.word.getLsbD 165 = r.acceptBounds ∧ r.word.getLsbD 164 = r.mmShift ∧
    r.word.extractLsb' 161 3 =
      (match r.cls with
        | none => 0 | some .zero => 1 | some .subnormal => 2 | some .normal => 3 | some .inf => 4 | some .nan => 5) ∧
    r.word.getLsbD 160 = r.sign ∧ r.word.extractLsb' 128 32 = r.e ∧ r.word.extractLsb' 64 64 = r.r1 ∧
    r.word.extractLsb' 0 64 = r.r0) ∧
  ∀ (i : Instr) (s : State), ∃ (t : State) (r : Response), exec i s = .next t ∧
    t.response s.sel = some r ∧ t.responseWord s.sel = some r.word ∧ (r.word.extractLsb' 168 4).toNat ≤ 4 ∧
    (r.word.extractLsb' 161 3).toNat ≤ 5 ∧
    (r.word.extractLsb' 161 3 ≠ 0 → r.status = .ok ∧ ∃ o, i = .dec32 o ∨ i = .dec64 o)

/-- A word of 176 bits is read as a response exactly if it is that response's word: nothing is dropped, and no word with a bit set
that is always 0, or with a code that is never produced, is read as one (30_encoding.md R63). -/
def Obligations.ResponseReadIffWritten : Prop :=
  ∀ (w : RspWord) (r : Response), Response.ofWord w = some r ↔ r.word = w

/-- The two pseudo-operations of 30_encoding.md R72 expand to one real operation each: `T` names the low word `T0` and the high
word `T1`. -/
def Obligations.PseudoOperationsExpand : Prop :=
  (∀ (m t0 t1 : U64) (sh : BitVec 8),
    (Line.mulshift64T m (t1 ++ t0) sh).instr = .mulshift64 { a := m, b := t0, c := t1, sh := sh }) ∧
  (∀ bits : BitVec 32, (Line.decShort bits).instr = .dec32 { a := bits.setWidth 64 }) ∧
  (∀ bits : U64, (Line.decLong bits).instr = .dec64 { a := bits })

/-- The spelling of 30_encoding.md, section 5: a line's command word as 52 hexadecimal digits, `op` first, digit by digit. -/
def Obligations.HostLineDigits : Prop :=
  ∀ l : Line, l.hex.length = 52 ∧
    ∀ k : Nat, k < 52 → l.hex[k]? =
      ['0', '1', '2', '3', '4', '5', '6', '7', '8', '9', 'A', 'B', 'C', 'D', 'E', 'F'][
        ((encodeWord l.instr).extractLsb' (4 * (51 - k)) 4).toNat]?

/-! ### Refusals -/

/-- 60_exceptions.md R256: the status of every command word, with the priority `BAD_OP`, `BAD_OPERAND`, then `BAD_INDEX` or
`BAD_SHIFT`, read off the bits of the word. -/
def Obligations.RefusalPriority : Prop :=
  ∀ (s : State) (p : Nat) (w : CmdWord), s.Ready p →
    let op := w.extractLsb' 200 8
    let a := (w.extractLsb' 0 64).toNat
    let bZero := w.extractLsb' 64 64 = 0
    let cZero := w.extractLsb' 128 64 = 0
    let sh := (w.extractLsb' 192 8).toNat
    ∃ (t : State) (r : Response), step (s.present p w) = .next t ∧ t.response p = some r ∧ r.status =
      if op ∉ [0x01, 0x02, 0x10, 0x11, 0x12, 0x20, 0x21, 0x22, 0x30, 0x31] then .badOp
      else if (op = 0x01 ∧ 2 ^ 32 ≤ a) ∨ (op ∉ [0x10, 0x11, 0x12] ∧ ¬ bZero) ∨ (op ≠ 0x12 ∧ (¬ cZero ∨ sh ≠ 0)) ∨
        (op ∈ [0x20, 0x21, 0x22] ∧ 65535 < a) then .badOperand
      else if (op = 0x30 ∧ 325 < a) ∨ (op = 0x31 ∧ 341 < a) then .badIndex
      else if op = 0x12 ∧ ¬ (65 ≤ sh ∧ sh ≤ 127) then .badShift
      else .ok

/-- 30_encoding.md R67, 60_exceptions.md R252: the 246 codes that name no operation are answered `BAD_OP` with every other field 0,
whatever the other fields of the command hold. -/
def Obligations.ReservedOpcodesRefused : Prop :=
  (∀ (s : State) (p : Nat) (w : CmdWord), s.Ready p →
    w.extractLsb' 200 8 ∉ [0x01, 0x02, 0x10, 0x11, 0x12, 0x20, 0x21, 0x22, 0x30, 0x31] →
    ∃ t : State, step (s.present p w) = .next t ∧
      { t with runFault := s.runFault } = { s with sel := p, out := some { port := p, rsp := { status := .badOp } } }) ∧
  ((List.range 256).filter fun n =>
    BitVec.ofNat 8 n ∉ [0x01#8, 0x02, 0x10, 0x11, 0x12, 0x20, 0x21, 0x22, 0x30, 0x31]).length = 246

/-- 30_encoding.md R68: an operation with a non-zero must-be-zero field is answered `BAD_OPERAND` with every other field 0, and two
different command words never mean the same operation. -/
def Obligations.MustBeZeroFieldsRefused : Prop :=
  (∀ (i : Instr) (s : State),
    (match i with
      | .dec32 o => o.a.extractLsb' 32 32 ≠ 0 ∨ o.b ≠ 0 ∨ o.c ≠ 0 ∨ o.sh ≠ 0
      | .mul64 o | .mulhi64 o => o.c ≠ 0 ∨ o.sh ≠ 0
      | .mulshift64 _ => False
      | .dec64 o | .pow5bits o | .log10pow2 o | .log10pow5 o | .pow5 o | .pow5inv o => o.b ≠ 0 ∨ o.c ≠ 0 ∨ o.sh ≠ 0) →
    ∃ t : State, exec i s = .next t ∧
      { t with runFault := s.runFault } = s.answered { status := .badOperand }) ∧
  ∀ (v w : CmdWord) (i : Instr), decodeWord v = .ok i → decodeWord w = .ok i → v = w

/-- The legal commands of the table of 30_encoding.md R62, and only they, are answered `OK`; every command is answered. The table is
`Instr.wellFormed`, written apart from the checks the meanings make. -/
def Obligations.OkExactlyForLegalCommands : Prop :=
  ∀ (i : Instr) (s : State), ∃ (t : State) (r : Response), exec i s = .next t ∧ t.response s.sel = some r ∧
    (r.status = .ok ↔ WellFormed i)

/-- 60_exceptions.md R251: a refused command is answered with its code and 0 in every other field, nothing else of the block
changes, and the next transaction, on whatever port, is not affected in any way. (The record `runFault`, which this statement says
nothing of, is the model's own, log entry 8.) -/
def Obligations.RefusalLeavesNothingBehind : Prop :=
  ∀ (s t : State) (p : Nat) (w : CmdWord) (r : Response), s.Ready p → s.transact p w = some (t, r) → r.status ≠ .ok →
    r = { status := r.status, r0 := 0, r1 := 0, e := 0, sign := false, cls := none, mmShift := false, acceptBounds := false } ∧
    t.layout = s.layout ∧ t.ports = s.ports ∧ (∀ q, q ≠ p → t.response q = none) ∧
    ∀ (q : Nat) (w' : CmdWord), s.Ready q →
      (t.transact q w').map Prod.snd = (s.transact q w').map Prod.snd

/-- The model's rendering of 60_exceptions.md R257 (log entry 8, a design choice): the first refusal of the run is recorded, and no
step, reset included, clears or changes a record. -/
def Obligations.RecordedFaultStays : Prop :=
  (∀ (s t : State) (f : Status), step s = .next t → s.runFault = some f → t.runFault = some f) ∧
  ∀ (s t : State) (p : Nat) (w : CmdWord) (r : Response), s.Ready p → s.transact p w = some (t, r) → s.runFault = none →
    t.runFault = if r.status = .ok then none else some r.status

/-! ### The decomposer -/

/-- 40_decomposer.md R100: `DEC32`, on every binary32 pattern and in every state, and its one refusal. -/
def Obligations.Dec32Result : Prop :=
  ∀ (o : Fields) (s : State),
    let bits := o.a.toNat
    let ef := bits / 2 ^ 23 % 2 ^ 8
    let mf := bits % 2 ^ 23
    let out (c : Cls) (m2 : Nat) (e2 : Int) : Response :=
      { status := .ok, r0 := BitVec.ofNat 64 m2, r1 := 0, e := BitVec.ofInt 32 e2, sign := decide (bits / 2 ^ 31 = 1),
        cls := some c, mmShift := decide (¬ (mf = 0 ∧ 1 < ef)), acceptBounds := decide (m2 % 2 = 0) }
    (o.a.extractLsb' 32 32 = 0 ∧ o.b = 0 ∧ o.c = 0 ∧ o.sh = 0 →
      exec (.dec32 o) s = .next (s.answered (
        if ef = 0 ∧ mf = 0 then out .zero 0 0
        else if ef = 255 ∧ mf = 0 then out .inf 0 0x7FFFFFFF
        else if ef = 255 then out .nan mf 0x7FFFFFFF
        else if ef = 0 then out .subnormal mf (-151)
        else out .normal (2 ^ 23 + mf) ((ef : Int) - 152)))) ∧
    (¬ (o.a.extractLsb' 32 32 = 0 ∧ o.b = 0 ∧ o.c = 0 ∧ o.sh = 0) →
      ∃ t : State, exec (.dec32 o) s = .next t ∧
        { t with runFault := s.runFault } = s.answered { status := .badOperand }) ∧
    (encodeWord (.dec32 o)).extractLsb' 200 8 = 0x01

/-- 40_decomposer.md R101: `DEC64`, on every binary64 pattern and in every state, and its one refusal. -/
def Obligations.Dec64Result : Prop :=
  ∀ (o : Fields) (s : State),
    let bits := o.a.toNat
    let ef := bits / 2 ^ 52 % 2 ^ 11
    let mf := bits % 2 ^ 52
    let out (c : Cls) (m2 : Nat) (e2 : Int) : Response :=
      { status := .ok, r0 := BitVec.ofNat 64 m2, r1 := 0, e := BitVec.ofInt 32 e2, sign := decide (bits / 2 ^ 63 = 1),
        cls := some c, mmShift := decide (¬ (mf = 0 ∧ 1 < ef)), acceptBounds := decide (m2 % 2 = 0) }
    (o.b = 0 ∧ o.c = 0 ∧ o.sh = 0 →
      exec (.dec64 o) s = .next (s.answered (
        if ef = 0 ∧ mf = 0 then out .zero 0 0
        else if ef = 2047 ∧ mf = 0 then out .inf 0 0x7FFFFFFF
        else if ef = 2047 then out .nan mf 0x7FFFFFFF
        else if ef = 0 then out .subnormal mf (-1076)
        else out .normal (2 ^ 52 + mf) ((ef : Int) - 1077)))) ∧
    (¬ (o.b = 0 ∧ o.c = 0 ∧ o.sh = 0) →
      ∃ t : State, exec (.dec64 o) s = .next t ∧
        { t with runFault := s.runFault } = s.answered { status := .badOperand }) ∧
    (encodeWord (.dec64 o)).extractLsb' 200 8 = 0x02

/-- 40_decomposer.md R93: the class by the two fields alone, its code, and the sign bit takes no part: two patterns that differ in
the sign bit only get responses that differ in `sign` only. -/
def Obligations.ClassificationIgnoresSign : Prop :=
  (∀ (bits : BitVec 32) (s : State), ∃ r : Response,
    exec (.dec32 { a := bits.setWidth 64 }) s = .next (s.answered r) ∧
    clsCode r.cls =
      (let ef := bits.extractLsb' 23 8
       let mf := bits.extractLsb' 0 23
       if ef = 0 ∧ mf = 0 then 1 else if ef = 255 ∧ mf = 0 then 4 else if ef = 255 ∧ mf ≠ 0 then 5
       else if ef = 0 ∧ mf ≠ 0 then 2 else 3) ∧
    exec (.dec32 { a := (bits ^^^ 0x80000000#32).setWidth 64 }) s =
      .next (s.answered { r with sign := !r.sign })) ∧
  (∀ (bits : U64) (s : State), ∃ r : Response,
    exec (.dec64 { a := bits }) s = .next (s.answered r) ∧
    clsCode r.cls =
      (let ef := bits.extractLsb' 52 11
       let mf := bits.extractLsb' 0 52
       if ef = 0 ∧ mf = 0 then 1 else if ef = 2047 ∧ mf = 0 then 4 else if ef = 2047 ∧ mf ≠ 0 then 5
       else if ef = 0 ∧ mf ≠ 0 then 2 else 3) ∧
    exec (.dec64 { a := bits ^^^ 0x8000000000000000#64 }) s =
      .next (s.answered { r with sign := !r.sign }))

/-- 40_decomposer.md R95: infinity and NaN. `e2` is the sentinel exactly for them, `m2` is the raw mantissa field there, zero exactly
for `INF` and non-zero exactly for `NAN`, the sign is the top bit, and every finite `e2` lies in -1076 to 969. -/
def Obligations.SentinelMarksInfinityAndNan : Prop :=
  (∀ (bits : BitVec 32) (s : State), ∃ r : Response,
    exec (.dec32 { a := bits.setWidth 64 }) s = .next (s.answered r) ∧
    (r.e.toInt = 0x7FFFFFFF ↔ r.cls = some .inf ∨ r.cls = some .nan) ∧
    (r.cls = some .inf ∨ r.cls = some .nan →
      r.r0 = (bits.extractLsb' 0 23).setWidth 64 ∧ (r.r0 = 0 ↔ r.cls = some .inf) ∧ (r.r0 ≠ 0 ↔ r.cls = some .nan) ∧
      r.sign = bits.getLsbD 31) ∧
    (r.cls ≠ some .inf → r.cls ≠ some .nan → -1076 ≤ r.e.toInt ∧ r.e.toInt ≤ 969)) ∧
  (∀ (bits : U64) (s : State), ∃ r : Response,
    exec (.dec64 { a := bits }) s = .next (s.answered r) ∧
    (r.e.toInt = 0x7FFFFFFF ↔ r.cls = some .inf ∨ r.cls = some .nan) ∧
    (r.cls = some .inf ∨ r.cls = some .nan →
      r.r0 = (bits.extractLsb' 0 52).setWidth 64 ∧ (r.r0 = 0 ↔ r.cls = some .inf) ∧ (r.r0 ≠ 0 ↔ r.cls = some .nan) ∧
      r.sign = bits.getLsbD 63) ∧
    (r.cls ≠ some .inf → r.cls ≠ some .nan → -1076 ≤ r.e.toInt ∧ r.e.toInt ≤ 969))

/-- The value identity of 40_decomposer.md, section 2 ("What `(m2, e2)` mean", which the spec marks as derived): a finite float is
`(-1)^sign * 4 * m2 * 2^e2`. -/
def Obligations.FloatValueIsFourM2TimesTwoToE2 : Prop :=
  (∀ (bits : BitVec 32) (s : State), IsFinite .binary32 bits.toNat → ∃ r : Response,
    exec (.dec32 { a := bits.setWidth 64 }) s = .next (s.answered r) ∧
    floatValue .binary32 bits.toNat = (if r.sign then -1 else 1) * 4 * (r.r0.toNat : ℚ) * (2 : ℚ) ^ r.e.toInt) ∧
  (∀ (bits : U64) (s : State), IsFinite .binary64 bits.toNat → ∃ r : Response,
    exec (.dec64 { a := bits }) s = .next (s.answered r) ∧
    floatValue .binary64 bits.toNat = (if r.sign then -1 else 1) * 4 * (r.r0.toNat : ℚ) * (2 : ℚ) ^ r.e.toInt)

/-- 40_decomposer.md R99: the flag itself, for every class, and what it is for: with `mv = 4 * m2`, `(mv - 1 - mm_shift) * 2^e2` and
`(mv + 2) * 2^e2` are exactly the midpoints, in absolute value, between a finite non-zero float and its two neighbours (the one
pattern below and the one above; the second where that is a float). -/
def Obligations.MmShiftGivesTheMidpoints : Prop :=
  (∀ (bits : BitVec 32) (s : State), ∃ r : Response,
    exec (.dec32 { a := bits.setWidth 64 }) s = .next (s.answered r) ∧
    (r.mmShift = false ↔ bits.extractLsb' 0 23 = 0 ∧ 1 < (bits.extractLsb' 23 8).toNat) ∧
    (IsFinite .binary32 bits.toNat → floatValue .binary32 bits.toNat ≠ 0 →
      |floatValue .binary32 (bits.toNat - 1)| + |floatValue .binary32 bits.toNat| =
        2 * ((4 * (r.r0.toNat : ℚ) - 1 - (r.mmShift.toNat : ℚ)) * (2 : ℚ) ^ r.e.toInt) ∧
      (IsFinite .binary32 (bits.toNat + 1) →
        |floatValue .binary32 bits.toNat| + |floatValue .binary32 (bits.toNat + 1)| =
          2 * ((4 * (r.r0.toNat : ℚ) + 2) * (2 : ℚ) ^ r.e.toInt)))) ∧
  (∀ (bits : U64) (s : State), ∃ r : Response,
    exec (.dec64 { a := bits }) s = .next (s.answered r) ∧
    (r.mmShift = false ↔ bits.extractLsb' 0 52 = 0 ∧ 1 < (bits.extractLsb' 52 11).toNat) ∧
    (IsFinite .binary64 bits.toNat → floatValue .binary64 bits.toNat ≠ 0 →
      |floatValue .binary64 (bits.toNat - 1)| + |floatValue .binary64 bits.toNat| =
        2 * ((4 * (r.r0.toNat : ℚ) - 1 - (r.mmShift.toNat : ℚ)) * (2 : ℚ) ^ r.e.toInt) ∧
      (IsFinite .binary64 (bits.toNat + 1) →
        |floatValue .binary64 bits.toNat| + |floatValue .binary64 (bits.toNat + 1)| =
          2 * ((4 * (r.r0.toNat : ℚ) + 2) * (2 : ℚ) ^ r.e.toInt))))

/-- The output ranges of 40_decomposer.md, section 4 (which the spec marks as derived), class by class. -/
def Obligations.DecomposerOutputRanges : Prop :=
  (∀ (bits : BitVec 32) (s : State), ∃ (r : Response) (c : Cls),
    exec (.dec32 { a := bits.setWidth 64 }) s = .next (s.answered r) ∧
    r.cls = some c ∧ r.r1 = 0 ∧ r.r0.toNat < 2 ^ 24 ∧
    match c with
    | .zero => r.r0 = 0 ∧ r.e.toInt = 0
    | .subnormal => 1 ≤ r.r0.toNat ∧ r.r0.toNat ≤ 2 ^ 23 - 1 ∧ r.e.toInt = -151
    | .normal => 2 ^ 23 ≤ r.r0.toNat ∧ r.r0.toNat ≤ 2 ^ 24 - 1 ∧ -151 ≤ r.e.toInt ∧ r.e.toInt ≤ 102
    | .inf => r.r0 = 0 ∧ r.e.toInt = 2147483647
    | .nan => 1 ≤ r.r0.toNat ∧ r.r0.toNat ≤ 2 ^ 23 - 1 ∧ r.e.toInt = 2147483647) ∧
  (∀ (bits : U64) (s : State), ∃ (r : Response) (c : Cls),
    exec (.dec64 { a := bits }) s = .next (s.answered r) ∧
    r.cls = some c ∧ r.r1 = 0 ∧ r.r0.toNat < 2 ^ 53 ∧
    match c with
    | .zero => r.r0 = 0 ∧ r.e.toInt = 0
    | .subnormal => 1 ≤ r.r0.toNat ∧ r.r0.toNat ≤ 2 ^ 52 - 1 ∧ r.e.toInt = -1076
    | .normal => 2 ^ 52 ≤ r.r0.toNat ∧ r.r0.toNat ≤ 2 ^ 53 - 1 ∧ -1076 ≤ r.e.toInt ∧ r.e.toInt ≤ 969
    | .inf => r.r0 = 0 ∧ r.e.toInt = 2147483647
    | .nan => 1 ≤ r.r0.toNat ∧ r.r0.toNat ≤ 2 ^ 52 - 1 ∧ r.e.toInt = 2147483647)

/-! ### The multiplier -/

/-- 41_multiply_shift.md R121: `MUL64` returns the whole product in `r1:r0`, swapping the operands changes nothing, and its one
refusal. -/
def Obligations.Mul64Result : Prop :=
  ∀ (o : Fields) (s : State),
    (o.c = 0 ∧ o.sh = 0 → ∃ r0 r1 : U64,
      exec (.mul64 o) s = .next (s.answered { status := .ok, r0 := r0, r1 := r1 }) ∧
      r0.toNat = o.a.toNat * o.b.toNat % 2 ^ 64 ∧ r1.toNat = o.a.toNat * o.b.toNat / 2 ^ 64 ∧
      r1.toNat * 2 ^ 64 + r0.toNat = o.a.toNat * o.b.toNat) ∧
    exec (.mul64 { o with a := o.b, b := o.a }) s = exec (.mul64 o) s ∧
    (¬ (o.c = 0 ∧ o.sh = 0) → ∃ t : State, exec (.mul64 o) s = .next t ∧
      { t with runFault := s.runFault } = s.answered { status := .badOperand }) ∧
    (encodeWord (.mul64 o)).extractLsb' 200 8 = 0x10

/-- 41_multiply_shift.md R122: `MULHI64` returns the high half of the product, at most `2^64 - 2`, and its one refusal. (That it is the
`r1` of `MUL64`, a sentence marked as derived there, follows from `PartialProductsAreExact`.) -/
def Obligations.Mulhi64Result : Prop :=
  ∀ (o : Fields) (s : State),
    (o.c = 0 ∧ o.sh = 0 → ∃ r0 : U64,
      exec (.mulhi64 o) s = .next (s.answered { status := .ok, r0 := r0, r1 := 0 }) ∧
      r0.toNat = o.a.toNat * o.b.toNat / 2 ^ 64 ∧ r0.toNat ≤ 2 ^ 64 - 2) ∧
    (¬ (o.c = 0 ∧ o.sh = 0) → ∃ t : State, exec (.mulhi64 o) s = .next t ∧
      { t with runFault := s.runFault } = s.answered { status := .badOperand }) ∧
    (encodeWord (.mulhi64 o)).extractLsb' 200 8 = 0x11

/-- 41_multiply_shift.md R124, 60_exceptions.md R255: `MULSHIFT64` by the steps of its rule, which is `floor(m * mul / 2^shift)`
exactly, for shifts 65 to 127; every other shift is `BAD_SHIFT`. -/
def Obligations.Mulshift64Result : Prop :=
  ∀ (o : Fields) (s : State),
    (65 ≤ o.sh.toNat ∧ o.sh.toNat ≤ 127 → ∃ r0 r1 : U64,
      exec (.mulshift64 o) s = .next (s.answered { status := .ok, r0 := r0, r1 := r1 }) ∧
      r1.toNat * 2 ^ 64 + r0.toNat =
        (o.a.toNat * o.b.toNat / 2 ^ 64 + o.a.toNat * o.c.toNat) / 2 ^ (o.sh.toNat - 64) ∧
      r1.toNat * 2 ^ 64 + r0.toNat = o.a.toNat * (o.c.toNat * 2 ^ 64 + o.b.toNat) / 2 ^ o.sh.toNat) ∧
    (o.sh.toNat ≤ 64 ∨ 128 ≤ o.sh.toNat → ∃ t : State, exec (.mulshift64 o) s = .next t ∧
      { t with runFault := s.runFault } = s.answered { status := .badShift }) ∧
    (encodeWord (.mulshift64 o)).extractLsb' 200 8 = 0x12

/-- 41_multiply_shift.md R127: the quotient is below `2^(192 - shift)`, all of it is returned, `r0` alone is the quotient exactly when
`r1 = 0`, and `r1 = 0` for every operand the engine uses. -/
def Obligations.MulshiftResultWidth : Prop :=
  ∀ (o : Fields) (s : State), 65 ≤ o.sh.toNat → o.sh.toNat ≤ 127 → ∃ r0 r1 : U64,
    exec (.mulshift64 o) s = .next (s.answered { status := .ok, r0 := r0, r1 := r1 }) ∧
    r1.toNat * 2 ^ 64 + r0.toNat < 2 ^ (192 - o.sh.toNat) ∧
    (r1 = 0 ↔ r0.toNat = o.a.toNat * (o.c.toNat * 2 ^ 64 + o.b.toNat) / 2 ^ o.sh.toNat) ∧
    (o.a.toNat ≤ 2 ^ 55 - 2 → o.c.toNat * 2 ^ 64 + o.b.toNat < 2 ^ 126 → 118 ≤ o.sh.toNat → r1 = 0 ∧ r0.toNat < 2 ^ 63)

/-- The sum of `MULSHIFT64` never reaches `2^128`, and no smaller bound than the one of 41_multiply_shift.md, section 2, holds: the
largest operands reach it (the spec marks the bound as derived). -/
def Obligations.MulshiftSumFits128 : Prop :=
  (∀ m lo hi : U64, mulShiftSum m.toNat lo.toNat hi.toNat ≤ 2 ^ 128 - 2 ^ 64 - 1) ∧
  mulShiftSum (2 ^ 64 - 1) (2 ^ 64 - 1) (2 ^ 64 - 1) = 2 ^ 128 - 2 ^ 64 - 1

/-- The arrangement of four 32x32 partial products that 41_multiply_shift.md, section 1, writes out (from general knowledge, as the
spec marks it) is the exact product, and the halves are those `MUL64` returns, the high one that of `MULHI64`. -/
def Obligations.PartialProductsAreExact : Prop :=
  ∀ (a b : U64) (s : State),
    (partialProducts a.toNat b.toNat).1 * 2 ^ 64 + (partialProducts a.toNat b.toNat).2 = a.toNat * b.toNat ∧
    exec (.mul64 { a := a, b := b }) s = .next (s.answered {
      status := .ok
      r0 := BitVec.ofNat 64 (partialProducts a.toNat b.toNat).2
      r1 := BitVec.ofNat 64 (partialProducts a.toNat b.toNat).1 }) ∧
    exec (.mulhi64 { a := a, b := b }) s = .next (s.answered {
      status := .ok
      r0 := BitVec.ofNat 64 (partialProducts a.toNat b.toNat).1 })

/-! ### The logarithm helpers -/

/-- 42_pow5_table.md R151: `POW5BITS` is the formula and, on its whole domain, `floor(log2(5^e)) + 1`, the number of bits of `5^e`;
its refusals. -/
def Obligations.Pow5bitsResult : Prop :=
  ∀ (o : Fields) (s : State),
    (o.a.toNat ≤ 65535 ∧ o.b = 0 ∧ o.c = 0 ∧ o.sh = 0 → ∃ r0 : U64,
      exec (.pow5bits o) s = .next (s.answered { status := .ok, r0 := r0, r1 := 0 }) ∧
      r0.toNat = o.a.toNat * 163391164108059 / 2 ^ 46 + 1 ∧ r0.toNat = Nat.log 2 (5 ^ o.a.toNat) + 1) ∧
    (¬ (o.a.toNat ≤ 65535 ∧ o.b = 0 ∧ o.c = 0 ∧ o.sh = 0) → ∃ t : State, exec (.pow5bits o) s = .next t ∧
      { t with runFault := s.runFault } = s.answered { status := .badOperand }) ∧
    (encodeWord (.pow5bits o)).extractLsb' 200 8 = 0x20

/-- 42_pow5_table.md R154: `LOG10POW2` is the formula; its refusals. (The sentence on its meaning, marked as derived there, is in
`HelpersAreExactLogarithms`.) -/
def Obligations.Log10pow2Result : Prop :=
  ∀ (o : Fields) (s : State),
    (o.a.toNat ≤ 65535 ∧ o.b = 0 ∧ o.c = 0 ∧ o.sh = 0 → ∃ r0 : U64,
      exec (.log10pow2 o) s = .next (s.answered { status := .ok, r0 := r0, r1 := 0 }) ∧
      r0.toNat = o.a.toNat * 169464822037455 / 2 ^ 49) ∧
    (¬ (o.a.toNat ≤ 65535 ∧ o.b = 0 ∧ o.c = 0 ∧ o.sh = 0) → ∃ t : State, exec (.log10pow2 o) s = .next t ∧
      { t with runFault := s.runFault } = s.answered { status := .badOperand }) ∧
    (encodeWord (.log10pow2 o)).extractLsb' 200 8 = 0x21

/-- 42_pow5_table.md R157: `LOG10POW5` is the formula; its refusals. (The sentence on its meaning, marked as derived there, is in
`HelpersAreExactLogarithms`.) -/
def Obligations.Log10pow5Result : Prop :=
  ∀ (o : Fields) (s : State),
    (o.a.toNat ≤ 65535 ∧ o.b = 0 ∧ o.c = 0 ∧ o.sh = 0 → ∃ r0 : U64,
      exec (.log10pow5 o) s = .next (s.answered { status := .ok, r0 := r0, r1 := 0 }) ∧
      r0.toNat = o.a.toNat * 196742565691928 / 2 ^ 48) ∧
    (¬ (o.a.toNat ≤ 65535 ∧ o.b = 0 ∧ o.c = 0 ∧ o.sh = 0) → ∃ t : State, exec (.log10pow5 o) s = .next t ∧
      { t with runFault := s.runFault } = s.answered { status := .badOperand }) ∧
    (encodeWord (.log10pow5 o)).extractLsb' 200 8 = 0x22

/-- The three constants are exact on the whole domain (42_pow5_table.md, section 2, sentences the spec marks as derived by
computation): `POW5BITS` is the bit length of `5^e`, `LOG10POW2` is `floor(log10(2^e))`, `LOG10POW5` is `floor(log10(5^e))`. -/
def Obligations.HelpersAreExactLogarithms : Prop :=
  ∀ (o : Fields) (s : State), o.a.toNat ≤ 65535 → o.b = 0 → o.c = 0 → o.sh = 0 →
    exec (.pow5bits o) s = .next (s.answered { status := .ok, r0 := BitVec.ofNat 64 (Nat.log 2 (5 ^ o.a.toNat) + 1) }) ∧
    exec (.log10pow2 o) s = .next (s.answered { status := .ok, r0 := BitVec.ofNat 64 (Nat.log 10 (2 ^ o.a.toNat)) }) ∧
    exec (.log10pow5 o) s = .next (s.answered { status := .ok, r0 := BitVec.ofNat 64 (Nat.log 10 (5 ^ o.a.toNat)) })

/-- Width of the helper arithmetic (42_pow5_table.md, section 2, marked as derived): every product is below `2^64`, and the results
are at most 152168, 19728 and 45806, which the argument 65535 reaches. -/
def Obligations.HelperArithmeticFits64 : Prop :=
  (∀ e : Nat, e ≤ 65535 →
    e * 163391164108059 < 2 ^ 64 ∧ e * 169464822037455 < 2 ^ 64 ∧ e * 196742565691928 < 2 ^ 64 ∧
    pow5Bits e ≤ 152168 ∧ log10Pow2 e ≤ 19728 ∧ log10Pow5 e ≤ 45806) ∧
  pow5Bits 65535 = 152168 ∧ log10Pow2 65535 = 19728 ∧ log10Pow5 65535 = 45806

/-! ### The table -/

/-- 42_pow5_table.md R163: `POW5` returns `5^i` with its leading 1 moved to bit 124, low word in `r0` and high word in `r1`, under
either layout; its refusals. -/
def Obligations.Pow5Result : Prop :=
  ∀ (o : Fields) (s : State),
    let i := o.a.toNat
    let pb := Nat.log 2 (5 ^ i) + 1
    (o.b = 0 ∧ o.c = 0 ∧ o.sh = 0 → i ≤ 325 → ∃ r0 r1 : U64,
      exec (.pow5 o) s = .next (s.answered { status := .ok, r0 := r0, r1 := r1 }) ∧
      r1.toNat * 2 ^ 64 + r0.toNat = if pb ≤ 125 then 5 ^ i * 2 ^ (125 - pb) else 5 ^ i / 2 ^ (pb - 125)) ∧
    (o.b = 0 ∧ o.c = 0 ∧ o.sh = 0 → 325 < i → ∃ t : State, exec (.pow5 o) s = .next t ∧
      { t with runFault := s.runFault } = s.answered { status := .badIndex }) ∧
    (¬ (o.b = 0 ∧ o.c = 0 ∧ o.sh = 0) → ∃ t : State, exec (.pow5 o) s = .next t ∧
      { t with runFault := s.runFault } = s.answered { status := .badOperand }) ∧
    (encodeWord (.pow5 o)).extractLsb' 200 8 = 0x30

/-- 42_pow5_table.md R164: `POW5INV` returns `(2^(pb - 1 + 125) div 5^i) + 1`, low word in `r0` and high word in `r1`, under either
layout; its refusals. -/
def Obligations.Pow5invResult : Prop :=
  ∀ (o : Fields) (s : State),
    let i := o.a.toNat
    let pb := Nat.log 2 (5 ^ i) + 1
    (o.b = 0 ∧ o.c = 0 ∧ o.sh = 0 → i ≤ 341 → ∃ r0 r1 : U64,
      exec (.pow5inv o) s = .next (s.answered { status := .ok, r0 := r0, r1 := r1 }) ∧
      r1.toNat * 2 ^ 64 + r0.toNat = 2 ^ (pb - 1 + 125) / 5 ^ i + 1) ∧
    (o.b = 0 ∧ o.c = 0 ∧ o.sh = 0 → 341 < i → ∃ t : State, exec (.pow5inv o) s = .next t ∧
      { t with runFault := s.runFault } = s.answered { status := .badIndex }) ∧
    (¬ (o.b = 0 ∧ o.c = 0 ∧ o.sh = 0) → ∃ t : State, exec (.pow5inv o) s = .next t ∧
      { t with runFault := s.runFault } = s.answered { status := .badOperand }) ∧
    (encodeWord (.pow5inv o)).extractLsb' 200 8 = 0x31

/-- 42_pow5_table.md R170: the two layouts are one table. The read primitive answers the same entry for every index, and changing
the layout of a machine changes nothing of what a step does: no operation reveals which layout is built. -/
def Obligations.LayoutIsInvisible : Prop :=
  (∀ (sp : Space) (i : Nat), memRead .direct sp i = memRead .compressed sp i) ∧
  (∀ (i : Instr) (s t : State) (l : Layout), exec i s = .next t →
    exec i { s with layout := l } = .next { t with layout := l }) ∧
  (∀ (s t : State) (l : Layout), step s = .next t → step { s with layout := l } = .next { t with layout := l })

/-- 42_pow5_table.md R178: cross-validation. The compressed computations of R172 and R176, from the arrays of the compressed layout,
equal the definitions of R161 and R162 for every index of the table. -/
def Obligations.CompressedEqualsDefinition : Prop :=
  (∀ i : Nat, i ≤ 325 → compressedPow5 i = some (BitVec.ofNat 128 (pow5Entry i))) ∧
  (∀ i : Nat, i ≤ 341 → compressedPow5Inv i = some (BitVec.ofNat 128 (pow5InvEntry i)))

/-- The offset tables repair the compressed estimates (42_pow5_table.md, section 4, marked as derived by computation): each offset is
the difference of the entry and the estimate, 0 where the index is a multiple of 26, never 3, and 2 exactly at the listed indices. -/
def Obligations.OffsetsRepairTheEstimates : Prop :=
  (∀ i : Nat, i ≤ 325 → ∃ off : Nat, packedOffset romOffsWords i = some off ∧ off ≤ 2 ∧
    (i % 26 = 0 → off = 0) ∧
    (i % 26 ≠ 0 → off + 5 ^ (i % 26) * pow5Entry (26 * (i / 26)) / 2 ^ (pow5Bits i - pow5Bits (26 * (i / 26))) = pow5Entry i) ∧
    (off = 2 ↔ i ∈ [83, 85, 89, 90, 93, 124, 236, 239, 242, 248, 295])) ∧
  (∀ i : Nat, i ≤ 341 → ∃ off : Nat, packedOffset romOffsInvWords i = some off ∧ off ≤ 2 ∧
    (i % 26 = 0 → off = 0) ∧
    (i % 26 ≠ 0 → off + (5 ^ (26 * ((i + 25) / 26) - i) * (pow5InvEntry (26 * ((i + 25) / 26)) - 1) /
      2 ^ (pow5Bits (26 * ((i + 25) / 26)) - pow5Bits i) + 1) = pow5InvEntry i) ∧
    (off = 2 ↔ i = 202))

/-- The paired-word product of 42_pow5_table.md, section 4 (its order of word operations is general knowledge, as the spec marks it)
is the exact 192-bit product for every residual below `2^59` and every entry below `2^126`, so no carry is lost. -/
def Obligations.PairedWordProductIsExact : Prop :=
  ∀ m low high : U64, m.toNat < 2 ^ 59 → high.toNat < 2 ^ 62 →
    pairedProduct m low high = m.toNat * (high.toNat * 2 ^ 64 + low.toNat)

/-- The ranges of the loaded entries (42_pow5_table.md, section 3, marked as derived): `POW5` entries have exactly 125 bits;
`POW5INV` entries lie above `2^124` and at most at `2^125 + 1`, and only entry 0 has 126 bits; `high < 2^62`. -/
def Obligations.LoadedEntryRanges : Prop :=
  ∀ (o : Fields) (s : State), o.b = 0 → o.c = 0 → o.sh = 0 →
    (o.a.toNat ≤ 325 → ∃ r0 r1 : U64,
      exec (.pow5 o) s = .next (s.answered { status := .ok, r0 := r0, r1 := r1 }) ∧
      2 ^ 124 ≤ r1.toNat * 2 ^ 64 + r0.toNat ∧ r1.toNat * 2 ^ 64 + r0.toNat < 2 ^ 125 ∧ r1.toNat < 2 ^ 62) ∧
    (o.a.toNat ≤ 341 → ∃ r0 r1 : U64,
      exec (.pow5inv o) s = .next (s.answered { status := .ok, r0 := r0, r1 := r1 }) ∧
      2 ^ 124 < r1.toNat * 2 ^ 64 + r0.toNat ∧ r1.toNat * 2 ^ 64 + r0.toNat ≤ 2 ^ 125 + 1 ∧ r1.toNat < 2 ^ 62 ∧
      (2 ^ 125 ≤ r1.toNat * 2 ^ 64 + r0.toNat ↔ o.a.toNat = 0))

/-- The direction of the approximation (42_pow5_table.md, section 3, marked as derived), on the loaded words: with `pb` the bit length
of `5^i`, `POW5[i] * 2^(pb-125) <= 5^i < (POW5[i] + 1) * 2^(pb-125)`, with equality on the left up to `i = 53`, and
`POW5INV[i] - 1 <= 2^(pb+124) / 5^i < POW5INV[i]`. Multiplied out to integers. -/
def Obligations.ApproximationDirection : Prop :=
  ∀ (o : Fields) (s : State), o.b = 0 → o.c = 0 → o.sh = 0 →
    let i := o.a.toNat
    let pb := Nat.log 2 (5 ^ i) + 1
    (i ≤ 325 → ∃ r0 r1 : U64,
      exec (.pow5 o) s = .next (s.answered { status := .ok, r0 := r0, r1 := r1 }) ∧
      (r1.toNat * 2 ^ 64 + r0.toNat) * 2 ^ pb ≤ 5 ^ i * 2 ^ 125 ∧
      5 ^ i * 2 ^ 125 < (r1.toNat * 2 ^ 64 + r0.toNat + 1) * 2 ^ pb ∧
      (i ≤ 53 → (r1.toNat * 2 ^ 64 + r0.toNat) * 2 ^ pb = 5 ^ i * 2 ^ 125)) ∧
    (i ≤ 341 → ∃ r0 r1 : U64,
      exec (.pow5inv o) s = .next (s.answered { status := .ok, r0 := r0, r1 := r1 }) ∧
      (r1.toNat * 2 ^ 64 + r0.toNat - 1) * 5 ^ i ≤ 2 ^ (pb + 124) ∧
      2 ^ (pb + 124) < (r1.toNat * 2 ^ 64 + r0.toNat) * 5 ^ i)

/-- What a correct Selector presents for the exponents of every binary64 and binary32 input (49_downstream_context.md, section 2, marked
as derived by computation): with `q`, the index and the shift as that file computes them, every helper argument, index and shift is
legal, and every shift is 118 to 125 (to 122 for a negative exponent). -/
def Obligations.SelectorNeverRefused : Prop :=
  (∀ e2 : Nat, e2 ≤ 969 →
    let q := log10Pow2 e2 - (if 3 < e2 then 1 else 0)
    let shift : Int := 125 + pow5Bits q - 1 + (q - e2)
    WellFormed (.log10pow2 { a := BitVec.ofNat 64 e2 }) ∧ WellFormed (.pow5bits { a := BitVec.ofNat 64 q }) ∧
    WellFormed (.pow5inv { a := BitVec.ofNat 64 q }) ∧ q ≤ 290 ∧ 118 ≤ shift ∧ shift ≤ 125) ∧
  (∀ ne : Nat, 1 ≤ ne → ne ≤ 1076 →
    let q := log10Pow5 ne - (if 1 < ne then 1 else 0)
    let i := ne - q
    let shift : Int := q - (pow5Bits i - 125)
    WellFormed (.log10pow5 { a := BitVec.ofNat 64 ne }) ∧ WellFormed (.pow5bits { a := BitVec.ofNat 64 i }) ∧
    WellFormed (.pow5 { a := BitVec.ofNat 64 i }) ∧ q ≤ 751 ∧ 1 ≤ i ∧ i ≤ 325 ∧ 118 ≤ shift ∧ shift ≤ 122)

/-! ### The machine -/

/-- A step on a port that carries a command word of an operation is exactly that operation (00_scope.md R11); no pc advances and
nothing is fetched (10_state.md R22). -/
def Obligations.StepRunsTheCommand : Prop :=
  ∀ (s : State) (w : CmdWord) (i : Instr), s.rst = false → s.command s.sel = some w → decodeWord w = .ok i → step s = exec i s

/-- The other steps, as the model has them: on a port without a command nothing is performed and nothing is handed to the caller
(10_state.md R22, "waits for the next command"; log entries 6 and 7), and a selection of a port that does not exist is the model's
one fault (log entry 9, a design choice). -/
def Obligations.StepWithoutACommand : Prop :=
  (∀ s : State, s.rst = false → s.sel < s.ports.length → s.command s.sel = none → step s = .next { s with out := none }) ∧
  (∀ s : State, s.rst = false → s.ports.length ≤ s.sel → step s = .fault .absentPort)

/-- The frame of every operation: it takes the command word off the selected port, hands one response to the caller, and changes
nothing else; no port but that one, no input, no build parameter, no table entry (10_state.md R20, R23, R24; 20_memory.md R42;
60_exceptions.md R259). `runFault` is the model's record (log entry 8) and changes only where nothing is recorded and the command was
refused. -/
def Obligations.OperationFrame : Prop :=
  ∀ (i : Instr) (s : State), ∃ (t : State) (r : Response), exec i s = .next t ∧
    t.out = some { port := s.sel, rsp := r } ∧ t.command s.sel = none ∧ (∀ q, q ≠ s.sel → t.ports[q]? = s.ports[q]?) ∧
    t.ports.length = s.ports.length ∧ t.layout = s.layout ∧ t.sel = s.sel ∧ t.rst = s.rst ∧
    (∀ (sp : Space) (j : Nat), memRead t.layout sp j = memRead s.layout sp j) ∧
    (t.runFault = s.runFault ∨ (s.runFault = none ∧ r.status ≠ .ok ∧ t.runFault = some r.status)) ∧
    (r.status = .ok → t.runFault = s.runFault)

/-- Every step keeps the invariant `State.Inv`: a port is selected, a response is on its way only on a port of the block where no
transaction is in progress, it is one the block can give (a refusal is its code and zeros; a decomposer's response keeps to its
class's ranges; no other response has float outputs), and while no fault of the run is recorded no refusal is on its way (30_encoding.md R63, R64; 60_exceptions.md R251; the record is log entry 8). -/
def Obligations.StepKeepsInv : Prop :=
  ∀ s t : State, s.Inv → step s = .next t → t.Inv

/-- The machine right after reset meets the invariant. -/
def Obligations.ResetMeetsInv : Prop := State.reset.Inv

/-- 70_reset_and_hazards.md R281, R282: after reset no port carries a response and no transaction is in progress; a transaction cut by
reset is abandoned without a response, nothing else changes, and the caller who re-issues its command gets the response it would have
got. That reset is an input line, and what a step with the line asserted does, is the model's form (log entry 5, a design choice). -/
def Obligations.ResetAbandonsTransactions : Prop :=
  (∀ p : Nat, State.reset.response p = none ∧ State.reset.command p = none) ∧
  ∀ s : State, s.rst = true → ∃ t : State, step s = .next t ∧
    (∀ p : Nat, t.response p = none ∧ t.command p = none) ∧
    t.ports.length = s.ports.length ∧ t.layout = s.layout ∧
    ∀ (p : Nat) (w : CmdWord), s.command p = some w → ∃ (u : State) (r : Response),
      step { s with sel := p, rst := false } = .next u ∧ u.response p = some r ∧
      (({ t with rst := false } : State).transact p w).map Prod.snd = some r

/-- 70_reset_and_hazards.md R284: no order of commands, no spacing and no mix of operations changes a result. From every state, the
responses to any list of transactions on any ports that are ready are, one by one, the responses a machine just out of reset gives to
each command alone. -/
def Obligations.ResponsesIgnoreHistory : Prop :=
  ∀ (s : State) (cs : List (Nat × CmdWord)), (∀ c ∈ cs, s.Ready c.1) →
    s.answers cs = cs.map fun c => (State.reset.transact 0 c.2).map Prod.snd

/-- 60_exceptions.md R266: transactions on different ports do not interact. Performing the transactions of two ports in either order
leaves the same ports and hands over the same responses, each response is the one the command gets on any ready port of any machine
with any number of ports, and the port whose turn it is not is untouched. -/
def Obligations.PortsDoNotInteract : Prop :=
  (∀ (s : State) (p q : Nat), p ≠ q → p < s.ports.length → q < s.ports.length → s.rst = false →
    ∃ t u t' u' : State,
      step { s with sel := p } = .next t ∧ step { t with sel := q } = .next u ∧
      step { s with sel := q } = .next t' ∧ step { t' with sel := p } = .next u' ∧
      u.ports = u'.ports ∧ t.response p = u'.response p ∧ u.response q = t'.response q ∧
      t.ports[q]? = s.ports[q]? ∧ t'.ports[p]? = s.ports[p]?) ∧
  (∀ (s s' : State) (p p' : Nat) (w : CmdWord), s.Ready p → s'.Ready p' →
    (s.transact p w).map Prod.snd = (s'.transact p' w).map Prod.snd)

/-- 70_reset_and_hazards.md R287: every transaction completes. Each command presented on a ready port of the block, whatever its 208
bits, is answered by the very next step, and the block is ready for the next one. -/
def Obligations.EveryTransactionCompletes : Prop :=
  ∀ (s : State) (p : Nat) (w : CmdWord), s.Ready p → ∃ (t : State) (r : Response),
    step (s.present p w) = .next t ∧ t.response p = some r ∧ t.command p = none ∧ (∀ q, s.Ready q → t.Ready q)

/-- 10_state.md R21, 92_eei_decisions.md D9: the block remembers neither its last command nor its last response. A port carries a
response after a step exactly if that step performed the transaction of the word that was presented there, the word is gone then, and
no step depends on a response that was given before. -/
def Obligations.NothingIsRetained : Prop :=
  (∀ s t : State, step s = .next t →
    (∀ p, (t.response p).isSome ↔ s.rst = false ∧ p = s.sel ∧ (s.command p).isSome) ∧
    (∀ p, (t.response p).isSome → t.command p = none)) ∧
  ∀ (s : State) (o : Option Delivery), step { s with out := o } = step s

/-- 60_exceptions.md R258: a transaction, once started, runs to its response. Whatever the caller presents on any port while a
transaction is in progress on port `p`, the response given on `p` is that of the word the transaction started with. For a second word
on `p` itself this is the model's choice (log entry 13, a design choice): the port keeps the word it has. -/
def Obligations.TransactionOnceStartedRuns : Prop :=
  ∀ (s : State) (p q : Nat) (w w' : CmdWord), s.rst = false → s.command p = some w → ∃ (t : State) (r : Response),
    step { s.present q w' with sel := p } = .next t ∧ t.response p = some r ∧ t.command p = none ∧
    (State.reset.transact 0 w).map Prod.snd = some r

/-- Little-endian bytes of a response and of a table entry (20_memory.md R44, 92_eei_decisions.md D23): byte `k` holds bits `8k+7:8k`,
and they are read back. That a string of any other length is none is the model's choice (log entry 11). -/
def Obligations.ResponseAndEntryBytesLittleEndian : Prop :=
  (∀ r : Response, r.bytes.length = 22 ∧ (∀ k : Nat, k < 22 → r.bytes[k]? = some (r.word.extractLsb' (8 * k) 8)) ∧
    Response.ofBytes r.bytes = some r) ∧
  (∀ t : TableEntry, (entryBytes t).length = 16 ∧
    (∀ k : Nat, k < 16 → (entryBytes t)[k]? = some (t.extractLsb' (8 * k) 8)) ∧ entryOfBytes (entryBytes t) = some t) ∧
  (∀ bs : List Byte, bs.length ≠ 22 → Response.ofBytes bs = none) ∧
  (∀ bs : List Byte, bs.length ≠ 16 → entryOfBytes bs = none)
end

