-- ==== Sys2Proof/Laws/Decode.lean ====
section
/-! SUPPORT. Where a command word's fields stand: packing and unpacking are inverse (30_encoding.md R61); and the little-endian bytes
of a number (20_memory.md R44). -/

namespace Sys2Proof

/-- The bits of a packed command. -/
theorem getLsbD_packCommand (op : BitVec 8) (o : Fields) (i : Nat) : (packCommand op o).getLsbD i =
    if i < 64 then o.a.getLsbD i else if i - 64 < 64 then o.b.getLsbD (i - 64)
    else if i - 64 - 64 < 64 then o.c.getLsbD (i - 64 - 64)
    else if i - 64 - 64 - 64 < 8 then o.sh.getLsbD (i - 64 - 64 - 64) else op.getLsbD (i - 64 - 64 - 64 - 8) := by
  simp only [packCommand, BitVec.getLsbD_append]

theorem packCommand_a (op : BitVec 8) (o : Fields) : (packCommand op o).extractLsb' 0 64 = o.a := by
  apply BitVec.eq_of_getLsbD_eq
  intro i hi
  simp only [BitVec.getLsbD_extractLsb', getLsbD_packCommand, hi, decide_true, Bool.true_and, Nat.zero_add, if_true]

theorem packCommand_b (op : BitVec 8) (o : Fields) : (packCommand op o).extractLsb' 64 64 = o.b := by
  apply BitVec.eq_of_getLsbD_eq
  intro i hi
  simp only [BitVec.getLsbD_extractLsb', getLsbD_packCommand, hi, decide_true, Bool.true_and,
    show ¬ 64 + i < 64 by omega, show 64 + i - 64 = i by omega, if_true, if_false]

theorem packCommand_c (op : BitVec 8) (o : Fields) : (packCommand op o).extractLsb' 128 64 = o.c := by
  apply BitVec.eq_of_getLsbD_eq
  intro i hi
  simp only [BitVec.getLsbD_extractLsb', getLsbD_packCommand, hi, decide_true, Bool.true_and,
    show ¬ 128 + i < 64 by omega, show ¬ 128 + i - 64 < 64 by omega, show 128 + i - 64 - 64 = i by omega,
    if_true, if_false]

theorem packCommand_sh (op : BitVec 8) (o : Fields) : (packCommand op o).extractLsb' 192 8 = o.sh := by
  apply BitVec.eq_of_getLsbD_eq
  intro i hi
  simp only [BitVec.getLsbD_extractLsb', getLsbD_packCommand, hi, decide_true, Bool.true_and,
    show ¬ 192 + i < 64 by omega, show ¬ 192 + i - 64 < 64 by omega, show ¬ 192 + i - 64 - 64 < 64 by omega,
    show 192 + i - 64 - 64 - 64 = i by omega, if_true, if_false]

theorem packCommand_op (op : BitVec 8) (o : Fields) : (packCommand op o).extractLsb' 200 8 = op := by
  apply BitVec.eq_of_getLsbD_eq
  intro i hi
  simp only [BitVec.getLsbD_extractLsb', getLsbD_packCommand, hi, decide_true, Bool.true_and,
    show ¬ 200 + i < 64 by omega, show ¬ 200 + i - 64 < 64 by omega, show ¬ 200 + i - 64 - 64 < 64 by omega,
    show ¬ 200 + i - 64 - 64 - 64 < 8 by omega, show 200 + i - 64 - 64 - 64 - 8 = i by omega, if_false]

/-- Unpacking a packed command gives its fields. -/
@[simp] theorem fields_packCommand (op : BitVec 8) (o : Fields) : CmdWord.fields (packCommand op o) = o := by
  simp only [CmdWord.fields, packCommand_a, packCommand_b, packCommand_c, packCommand_sh]

/-- Unpacking a packed command gives its code. -/
@[simp] theorem op_packCommand (op : BitVec 8) (o : Fields) : CmdWord.op (packCommand op o) = op :=
  packCommand_op op o

/-- Packing what was unpacked gives the word: no bit of a command word is outside the five fields. -/
theorem packCommand_unpack (w : CmdWord) : packCommand (CmdWord.op w) (CmdWord.fields w) = w := by
  apply BitVec.eq_of_getLsbD_eq
  intro i hi
  simp only [getLsbD_packCommand, CmdWord.op, CmdWord.fields, BitVec.getLsbD_extractLsb']
  split
  · simp [*]
  split
  · simp [*, show 64 + (i - 64) = i by omega]
  split
  · simp [*, show 128 + (i - 64 - 64) = i by omega]
  split
  · simp [*, show 192 + (i - 64 - 64 - 64) = i by omega]
  · simp [show 200 + (i - 64 - 64 - 64 - 8) = i by omega, show i - 64 - 64 - 64 - 8 < 8 by omega]

theorem bytesOf_length (n v : Nat) : (bytesOf n v).length = n := by
  induction n generalizing v with
  | zero => rfl
  | succ n ih => simp [bytesOf, ih]

/-- Byte `k` of a number is its digit of weight `256^k`. -/
theorem bytesOf_getElem? {n k : Nat} (v : Nat) (h : k < n) : (bytesOf n v)[k]? = some (BitVec.ofNat 8 (v / 256 ^ k)) := by
  induction n generalizing v k with
  | zero => omega
  | succ n ih =>
    cases k with
    | zero => simp [bytesOf]
    | succ k => simp [bytesOf, ih _ (Nat.lt_of_succ_lt_succ h), Nat.div_div_eq_div_mul, Nat.pow_succ, Nat.mul_comm]

/-- Reading back the bytes of a number that fits. -/
theorem numberOfBytes_bytesOf {n v : Nat} (h : v < 256 ^ n) : numberOfBytes (bytesOf n v) = v := by
  induction n generalizing v with
  | zero =>
    rw [Nat.pow_zero, Nat.lt_one_iff] at h
    rw [bytesOf, numberOfBytes, h]
  | succ n ih =>
    rw [Nat.pow_succ] at h
    rw [bytesOf, numberOfBytes, ih (by omega), BitVec.toNat_ofNat]
    omega

/-- The bytes of a word are the 8-bit slices of it, from bit 0 up (R44: "byte 0 holds bits 7:0"). -/
theorem bytesOf_word {m n k : Nat} (w : BitVec m) (h : k < n) :
    (bytesOf n w.toNat)[k]? = some (w.extractLsb' (8 * k) 8) := by
  rw [bytesOf_getElem? _ h]
  refine congrArg some (BitVec.eq_of_toNat_eq ?_)
  rw [BitVec.extractLsb'_toNat, BitVec.toNat_ofNat, Nat.shiftRight_eq_div_pow, show 256 = 2 ^ 8 by rfl, ← Nat.pow_mul]

end Sys2Proof
end

