-- ==== Sys2Proof/Laws/Decomposer.lean ====
section
/-! SUPPORT. The fields of a pattern and the numbers the decomposer's outputs hold (40_decomposer.md R92, R94 to R96). -/

namespace Sys2Proof.Machine

theorem efOf_lt (f : Format) (bits : Nat) : efOf f bits < efMax f + 1 := by
  cases f <;> exact Nat.mod_lt _ (by decide)

theorem mfOf_lt (f : Format) (bits : Nat) : mfOf f bits < 2 ^ mantissaWidth f := by
  cases f <;> exact Nat.mod_lt _ (by decide)

/-- `m2` fits `RSP.r0`. -/
theorem significand_toNat {f : Format} {c : Cls} {mf : Nat} (h : mf < 2 ^ mantissaWidth f) :
    (BitVec.ofNat 64 (significand f c mf)).toNat = significand f c mf := by
  rw [BitVec.toNat_ofNat, Nat.mod_eq_of_lt]
  cases f <;> cases c <;> simp [significand, mantissaWidth] at * <;> omega

/-- `e2` fits `RSP.e`. -/
theorem exponent_toInt {f : Format} {c : Cls} {ef : Nat} (h : ef < efMax f + 1) :
    (toI32 (exponent f c ef)).toInt = exponent f c ef := by
  apply BitVec.toInt_ofInt_eq_self (by decide) <;> cases f <;> cases c <;>
    simp [exponent, e2Sub, e2Off, specialExp, efMax] at * <;> omega

theorem efOf_binary32 (bits : BitVec 32) : efOf .binary32 bits.toNat = (bits.extractLsb' 23 8).toNat := by
  simp [efOf, slice, BitVec.extractLsb'_toNat, Nat.shiftRight_eq_div_pow, mantissaWidth, exponentWidth]

theorem mfOf_binary32 (bits : BitVec 32) : mfOf .binary32 bits.toNat = (bits.extractLsb' 0 23).toNat := by
  simp [mfOf, slice, BitVec.extractLsb'_toNat, mantissaWidth]

theorem signOf_binary32 (bits : BitVec 32) : signOf .binary32 bits.toNat = bits.getLsbD 31 := by
  simp [signOf, slice, totalWidth, BitVec.getLsbD, Nat.testBit, Nat.shiftRight_eq_div_pow]

theorem efOf_binary64 (bits : U64) : efOf .binary64 bits.toNat = (bits.extractLsb' 52 11).toNat := by
  simp [efOf, slice, BitVec.extractLsb'_toNat, Nat.shiftRight_eq_div_pow, mantissaWidth, exponentWidth]

theorem mfOf_binary64 (bits : U64) : mfOf .binary64 bits.toNat = (bits.extractLsb' 0 52).toNat := by
  simp [mfOf, slice, BitVec.extractLsb'_toNat, mantissaWidth]

theorem signOf_binary64 (bits : U64) : signOf .binary64 bits.toNat = bits.getLsbD 63 := by
  simp [signOf, slice, totalWidth, BitVec.getLsbD, Nat.testBit, Nat.shiftRight_eq_div_pow]

/-- The pattern one below (a float's lower neighbour in absolute value): the same exponent field, or the last of the field below. -/
theorem fields_pred {f : Format} {bits : Nat} (h : mfOf f bits ≠ 0 ∨ efOf f bits ≠ 0) :
    (mfOf f bits ≠ 0 ∧ efOf f (bits - 1) = efOf f bits ∧ mfOf f (bits - 1) = mfOf f bits - 1) ∨
    (mfOf f bits = 0 ∧ efOf f (bits - 1) = efOf f bits - 1 ∧ mfOf f (bits - 1) = 2 ^ mantissaWidth f - 1) := by
  cases f <;> simp [mfOf, efOf, slice, mantissaWidth, exponentWidth] at * <;> omega

/-- The pattern one above a finite one. -/
theorem fields_succ {f : Format} {bits : Nat} (h : efOf f bits ≠ efMax f) :
    (mfOf f bits + 1 < 2 ^ mantissaWidth f ∧ efOf f (bits + 1) = efOf f bits ∧ mfOf f (bits + 1) = mfOf f bits + 1) ∨
    (mfOf f bits + 1 = 2 ^ mantissaWidth f ∧ efOf f (bits + 1) = efOf f bits + 1 ∧ mfOf f (bits + 1) = 0) := by
  cases f <;> simp [mfOf, efOf, slice, mantissaWidth, exponentWidth, efMax] at * <;> omega

end Sys2Proof.Machine
end

