-- ==== Sys2Proof/Laws/State.lean ====
section
/-! SUPPORT. One lemma per field per update of State, by rfl, and what the command words and the response are after each update. -/

namespace Sys2Proof.Machine

variable (s : State) (r : Response) (st : Status) (p : Nat) (w : CmdWord)

@[simp] theorem deliver_layout : (s.deliver r).layout = s.layout := rfl
@[simp] theorem deliver_ports : (s.deliver r).ports = s.ports.set s.sel none := rfl
@[simp] theorem deliver_out : (s.deliver r).out = some { port := s.sel, rsp := r } := rfl
@[simp] theorem deliver_sel : (s.deliver r).sel = s.sel := rfl
@[simp] theorem deliver_rst : (s.deliver r).rst = s.rst := rfl
@[simp] theorem deliver_runFault : (s.deliver r).runFault = s.runFault := rfl

@[simp] theorem deliverNothing_layout : (s.deliverNothing).layout = s.layout := rfl
@[simp] theorem deliverNothing_ports : (s.deliverNothing).ports = s.ports := rfl
@[simp] theorem deliverNothing_out : (s.deliverNothing).out = none := rfl
@[simp] theorem deliverNothing_sel : (s.deliverNothing).sel = s.sel := rfl
@[simp] theorem deliverNothing_rst : (s.deliverNothing).rst = s.rst := rfl
@[simp] theorem deliverNothing_runFault : (s.deliverNothing).runFault = s.runFault := rfl

@[simp] theorem answered_layout : (s.answered r).layout = s.layout := rfl
@[simp] theorem answered_ports : (s.answered r).ports = s.ports.set s.sel none := rfl
@[simp] theorem answered_out : (s.answered r).out = some { port := s.sel, rsp := r } := rfl
@[simp] theorem answered_sel : (s.answered r).sel = s.sel := rfl
@[simp] theorem answered_rst : (s.answered r).rst = s.rst := rfl
@[simp] theorem answered_runFault : (s.answered r).runFault = s.runFault := rfl

@[simp] theorem recordFault_layout : (s.recordFault st).layout = s.layout := rfl
@[simp] theorem recordFault_ports : (s.recordFault st).ports = s.ports := rfl
@[simp] theorem recordFault_out : (s.recordFault st).out = s.out := rfl
@[simp] theorem recordFault_sel : (s.recordFault st).sel = s.sel := rfl
@[simp] theorem recordFault_rst : (s.recordFault st).rst = s.rst := rfl
@[simp] theorem recordFault_runFault : (s.recordFault st).runFault = some (s.runFault.getD st) := rfl

@[simp] theorem abandonAll_layout : (s.abandonAll).layout = s.layout := rfl
@[simp] theorem abandonAll_ports : (s.abandonAll).ports = s.ports.map fun _ => none := rfl
@[simp] theorem abandonAll_out : (s.abandonAll).out = none := rfl
@[simp] theorem abandonAll_sel : (s.abandonAll).sel = s.sel := rfl
@[simp] theorem abandonAll_rst : (s.abandonAll).rst = s.rst := rfl
@[simp] theorem abandonAll_runFault : (s.abandonAll).runFault = s.runFault := rfl

@[simp] theorem present_layout : (s.present p w).layout = s.layout := rfl
@[simp] theorem present_ports : (s.present p w).ports = s.ports.modify p fun c => some (c.getD w) := rfl
@[simp] theorem present_out : (s.present p w).out = none := rfl
@[simp] theorem present_sel : (s.present p w).sel = p := rfl
@[simp] theorem present_rst : (s.present p w).rst = s.rst := rfl
@[simp] theorem present_runFault : (s.present p w).runFault = s.runFault := rfl

/-- The model's `deliver` is the `answered` of the claims. -/
theorem deliver_eq_answered : s.deliver r = s.answered r := rfl

variable {s r st p w}

/-- A command word on a port, read as a list entry. -/
theorem command_eq_some : s.command p = some w ↔ s.ports[p]? = some (some w) := by
  simp [State.command, Option.join_eq_some_iff]

/-- A port with a transaction in progress is a port of the block. -/
theorem lt_of_command (h : s.command p = some w) : p < s.ports.length :=
  (List.getElem?_eq_some_iff.mp (command_eq_some.mp h)).1

/-- A port of the block without a transaction in progress, read as a list entry. -/
theorem getElem?_of_idle (hp : p < s.ports.length) (h : s.command p = none) : s.ports[p]? = some none := by
  rw [State.command, List.getElem?_eq_getElem hp, Option.join_some] at h
  rw [List.getElem?_eq_getElem hp, h]

/-- States with the same ports have the same command words. -/
theorem command_congr {t : State} (h : t.ports = s.ports) : t.command p = s.command p := by
  rw [State.command, h, State.command]

/-- A state no response was handed over in. -/
theorem response_of_out_none (h : s.out = none) : s.response p = none := by
  simp only [State.response, h]

/-- The port the response was handed over on carries it. -/
theorem response_of_out (h : s.out = some { port := p, rsp := r }) : s.response p = some r := by
  simp only [State.response, h, if_true]

/-- No other port carries a response. -/
theorem response_of_out_ne {q : Nat} (h : s.out = some { port := p, rsp := r }) (hq : q ≠ p) : s.response q = none := by
  simp only [State.response, h, if_neg hq.symm]

/-- A response that a port carries was handed over there. -/
theorem out_of_response (h : s.response p = some r) : s.out = some { port := p, rsp := r } := by
  unfold State.response at h
  split at h
  · split at h
    · cases h; subst p; assumption
    · cases h
  · cases h

/-- The selected port's command word is gone after an answer. -/
theorem command_answered : (s.answered r).command s.sel = none := by
  by_cases h : s.sel < s.ports.length <;> simp [State.command, h]

/-- An answer takes no other port's command word. -/
theorem command_answered_ne {q : Nat} (h : q ≠ s.sel) : (s.answered r).command q = s.command q := by
  simp [State.command, Ne.symm h]

/-- After reset no transaction is in progress. -/
theorem command_abandonAll (q : Nat) : s.abandonAll.command q = none := by
  simp only [State.command, abandonAll_ports, List.getElem?_map]
  cases s.ports[q]? <;> rfl

/-- A command word presented on a port of the block without a transaction is the word in progress there. -/
theorem command_present (hp : p < s.ports.length) (h : s.command p = none) : (s.present p w).command p = some w := by
  rw [command_eq_some, present_ports, List.getElem?_modify, getElem?_of_idle hp h]
  simp

/-- A transaction in progress keeps its word, whatever is presented (on its own port: log entry 13). -/
theorem command_present_of_some {q : Nat} {w' : CmdWord} (h : s.command p = some w) : (s.present q w').command p = some w := by
  rw [command_eq_some] at h ⊢
  rw [present_ports, List.getElem?_modify, h]
  by_cases hq : q = p <;> simp [hq]

/-- On a port that is ready, presenting writes the word and nothing else. -/
theorem present_ports_of_ready (h : s.Ready p) : (s.present p w).ports = s.ports.set p (some w) := by
  apply List.ext_getElem?
  intro q
  rw [present_ports, List.getElem?_modify, List.getElem?_set]
  by_cases hq : p = q
  · subst hq
    simp only [if_true, getElem?_of_idle h.1 h.2.1, h.1]; rfl
  · simp [hq]

end Sys2Proof.Machine
end

