-- ==== Sys2Proof/Laws/Ops.lean ====
section
/-! SUPPORT. What each shared operation can do, said once: a transaction ends in `finish` or in `raise`, and so does every
operation. -/

namespace Sys2Proof.Machine

/-- The state after a refusal with a status. -/
def refusedWith (s : State) (st : Status) : State := (s.recordFault st).answered { status := st }

@[simp] theorem finish_eq (r : Response) (s : State) : finish r s = .next (s.answered r) := rfl

@[simp] theorem raise_eq (st : Status) (s : State) : raise st s = .next (refusedWith s st) := rfl

/-- A refusal is the answer that holds its code and zeros, but for the record. -/
theorem refusedWith_eq (s : State) (st : Status) :
    { refusedWith s st with runFault := s.runFault } = s.answered { status := st } := rfl

@[simp] theorem refusedWith_ports (s : State) (st : Status) : (refusedWith s st).ports = s.ports.set s.sel none := rfl
@[simp] theorem refusedWith_out (s : State) (st : Status) :
    (refusedWith s st).out = some { port := s.sel, rsp := { status := st } } := rfl
@[simp] theorem refusedWith_layout (s : State) (st : Status) : (refusedWith s st).layout = s.layout := rfl
@[simp] theorem refusedWith_sel (s : State) (st : Status) : (refusedWith s st).sel = s.sel := rfl
@[simp] theorem refusedWith_rst (s : State) (st : Status) : (refusedWith s st).rst = s.rst := rfl
@[simp] theorem refusedWith_runFault (s : State) (st : Status) :
    (refusedWith s st).runFault = some (s.runFault.getD st) := rfl

/-- The check that an operation which reads `a` only makes. -/
theorem onlyA_iff (o : Fields) : onlyA o = true ↔ o.b = 0 ∧ o.c = 0 ∧ o.sh = 0 := by
  simp [onlyA]

/-- The check that an operation which reads `a` and `b` makes. -/
theorem onlyAB_iff (o : Fields) : onlyAB o = true ↔ o.c = 0 ∧ o.sh = 0 := by
  simp [onlyAB]

/-- The check of `DEC32` on the upper half of `a`. -/
theorem upperClear_iff (o : Fields) : upperClear o = true ↔ o.a.extractLsb' 32 32 = 0 := by
  simp [upperClear]

/-- The upper half of `a` is 0 exactly if `a` is below `2^32`. -/
theorem upper_zero_iff (a : U64) : a.extractLsb' 32 32 = 0 ↔ a.toNat < 2 ^ 32 := by
  rw [← BitVec.toNat_inj]
  have := a.isLt
  simp only [BitVec.extractLsb'_toNat, BitVec.ofNat_eq_ofNat, BitVec.toNat_ofNat, Nat.shiftRight_eq_div_pow]
  omega

/-- The pattern `DEC32` reads, where the upper half is 0, is `a`. -/
theorem pattern32_eq {o : Fields} (h : o.a.extractLsb' 32 32 = 0) : pattern32 o = o.a.toNat := by
  rw [upper_zero_iff] at h
  simp only [pattern32, BitVec.extractLsb'_toNat, Nat.shiftRight_zero]
  omega

/-- The check of the helpers on their argument. -/
theorem helperInDomain_iff (o : Fields) : helperInDomain o = true ↔ o.a.toNat ≤ 65535 := by
  exact decide_eq_true_iff

/-- The check of `MULSHIFT64` on its shift. -/
theorem shiftInDomain_iff (o : Fields) : shiftInDomain o = true ↔ 65 ≤ o.sh.toNat ∧ o.sh.toNat ≤ 127 := by
  rw [shiftInDomain, Bool.and_eq_true, decide_eq_true_iff, decide_eq_true_iff]
  exact Iff.rfl

/-- `RSP.r0` and `RSP.r1` of a number below `2^128` are that number. -/
theorem words_of_lt {v : Nat} (h : v < 2 ^ 128) : (highWord v).toNat * 2 ^ 64 + (lowWord v).toNat = v := by
  simp only [highWord, lowWord, BitVec.toNat_ofNat]
  omega

theorem lowWord_toNat (v : Nat) : (lowWord v).toNat = v % 2 ^ 64 := by
  simp [lowWord]

theorem highWord_toNat {v : Nat} (h : v < 2 ^ 128) : (highWord v).toNat = v / 2 ^ 64 := by
  simp only [highWord, BitVec.toNat_ofNat]
  omega

/-- The two words of a table entry are the entry (20_memory.md R43). -/
theorem entry_words (t : TableEntry) :
    (t.extractLsb' 64 64).toNat * 2 ^ 64 + (t.extractLsb' 0 64).toNat = t.toNat := by
  have := t.isLt
  simp only [BitVec.extractLsb'_toNat, Nat.shiftRight_eq_div_pow]
  omega

end Sys2Proof.Machine
end

