-- ==== Sys2Proof/Laws/Tables.lean ====
section
/-! SUPPORT. The table: both layouts hold exactly the entries that 42_pow5_table.md R161 and R162 define, and the ranges of the
entries. The finite checks over all 326 and 342 indices are evaluated by the kernel. -/

namespace Sys2Proof.Machine

/-- A check over a range, read as a statement about every index of it. -/
theorem all_of_range {n : Nat} {f : Nat → Bool} (h : (List.range n).all f = true) {i : Nat} (hi : i < n) : f i = true :=
  List.all_eq_true.mp h i (List.mem_range.mpr hi)

theorem bitlen_pow (i : Nat) : bitlen (5 ^ i) = Nat.log 2 (5 ^ i) + 1 := by
  simp [bitlen, Nat.log2_eq_log_two]

theorem direct_p5_check : layoutHoldsEntries .direct .p5 = true := by decide +kernel

theorem direct_p5inv_check : layoutHoldsEntries .direct .p5inv = true := by decide +kernel

theorem compressed_p5_check : layoutHoldsEntries .compressed .p5 = true := by decide +kernel

theorem compressed_p5inv_check : layoutHoldsEntries .compressed .p5inv = true := by decide +kernel

/-- The cross-validation of R178 holds. -/
theorem crossValidation_holds : crossValidation = true := by
  rw [crossValidation, compressed_p5_check, compressed_p5inv_check, Bool.and_self]

theorem p5_range_check : entryRanges .p5 = true := by decide +kernel

theorem p5inv_range_check : entryRanges .p5inv = true := by decide +kernel

/-- The arrays of either layout give the defined entry for every index of the space. -/
theorem layoutEntry_eq (l : Layout) (sp : Space) {i : Nat} (h : i ≤ maxIndex sp) :
    layoutEntry l sp i = some (BitVec.ofNat 128 (spaceEntry sp i)) := by
  have hl : layoutHoldsEntries l sp = true := by
    cases l <;> cases sp
    · exact direct_p5_check
    · exact direct_p5inv_check
    · exact compressed_p5_check
    · exact compressed_p5inv_check
  exact eq_of_beq (all_of_range hl (Nat.lt_succ_of_le h))

/-- `MemRead` (20_memory.md R41): the defined entry inside the range, under either layout. -/
theorem memRead_of_le (l : Layout) (sp : Space) {i : Nat} (h : i ≤ maxIndex sp) :
    memRead l sp i = some (BitVec.ofNat 128 (spaceEntry sp i)) := by
  rw [memRead, if_neg (by omega), layoutEntry_eq l sp h]

/-- `MemRead` is defined for no other index. -/
theorem memRead_of_gt (l : Layout) (sp : Space) {i : Nat} (h : maxIndex sp < i) : memRead l sp i = none := by
  rw [memRead, if_pos h]

/-- The layout is invisible to `MemRead` (42_pow5_table.md R170). -/
theorem memRead_layout (l l' : Layout) (sp : Space) (i : Nat) : memRead l sp i = memRead l' sp i := by
  rcases Nat.lt_or_ge (maxIndex sp) i with h | h
  · rw [memRead_of_gt l sp h, memRead_of_gt l' sp h]
  · rw [memRead_of_le l sp h, memRead_of_le l' sp h]

theorem pow5Entry_range {i : Nat} (h : i ≤ 325) : 2 ^ 124 ≤ pow5Entry i ∧ pow5Entry i < 2 ^ 125 := by
  have := all_of_range p5_range_check (Nat.lt_succ_of_le h)
  rw [entryInRange, Bool.and_eq_true, Bool.and_eq_true] at this
  exact ⟨Nat.le_of_ble_eq_true this.1.1, Nat.le_of_ble_eq_true this.1.2⟩

theorem pow5InvEntry_range {i : Nat} (h : i ≤ 341) :
    2 ^ 124 < pow5InvEntry i ∧ pow5InvEntry i ≤ 2 ^ 125 + 1 ∧ (i ≠ 0 → pow5InvEntry i < 2 ^ 125) := by
  have := all_of_range p5inv_range_check (Nat.lt_succ_of_le h)
  rw [entryInRange, Bool.and_eq_true, Bool.and_eq_true, Bool.and_eq_true, Bool.or_eq_true] at this
  refine ⟨Nat.le_of_ble_eq_true this.1.1.1, Nat.le_of_ble_eq_true this.1.1.2, fun hi => ?_⟩
  rcases this.1.2 with h0 | h1
  · exact absurd (eq_of_beq h0) hi
  · exact Nat.le_of_ble_eq_true h1

/-- Every entry of the table is below `2^126` (R165), so it is the number its 128 bits hold. -/
theorem spaceEntry_lt (sp : Space) {i : Nat} (h : i ≤ maxIndex sp) : spaceEntry sp i < 2 ^ 126 := by
  cases sp
  · exact Nat.lt_of_lt_of_le (pow5Entry_range h).2 (by norm_num)
  · exact Nat.lt_of_le_of_lt (pow5InvEntry_range h).2.1 (by norm_num)

end Sys2Proof.Machine
end

