-- ==== Sys2Proof/Laws/Exec.lean ====
section
/-! SUPPORT. Everything an operation can do, said once: the block's answer is a function of the command alone (10_state.md R20), and
`exec` concludes the selected port's transaction with it. Whole-machine proofs cite `exec_eq` and never unfold a meaning. -/

namespace Sys2Proof.Machine

/-- The response or the refusal a check leaves. -/
def checked (ok : Bool) (r : Response) (st : Status) : Response := if ok then r else { status := st }

/-- The answer of a table load. -/
def loadReply (sp : Space) (a : Nat) : Response :=
  match memRead .direct sp a with
  | some t => { r0 := t.extractLsb' 0 64, r1 := t.extractLsb' 64 64 }
  | none => { status := .badIndex }

/-- The answer of every operation, as a function of the command alone. -/
def reply : Instr → Response
  | .dec32 o => checked (onlyA o && upperClear o) (decompose .binary32 (pattern32 o)) .badOperand
  | .dec64 o => checked (onlyA o) (decompose .binary64 (pattern64 o)) .badOperand
  | .mul64 o => checked (onlyAB o) { r0 := lowWord (o.a.toNat * o.b.toNat), r1 := highWord (o.a.toNat * o.b.toNat) } .badOperand
  | .mulhi64 o => checked (onlyAB o) { r0 := highWord (o.a.toNat * o.b.toNat) } .badOperand
  | .mulshift64 o => checked (shiftInDomain o)
      { r0 := lowWord (mulShift o.a.toNat o.b.toNat o.c.toNat o.sh.toNat),
        r1 := highWord (mulShift o.a.toNat o.b.toNat o.c.toNat o.sh.toNat) } .badShift
  | .pow5bits o => checked (onlyA o && helperInDomain o) { r0 := BitVec.ofNat 64 (pow5Bits o.a.toNat) } .badOperand
  | .log10pow2 o => checked (onlyA o && helperInDomain o) { r0 := BitVec.ofNat 64 (log10Pow2 o.a.toNat) } .badOperand
  | .log10pow5 o => checked (onlyA o && helperInDomain o) { r0 := BitVec.ofNat 64 (log10Pow5 o.a.toNat) } .badOperand
  | .pow5 o => checked (onlyA o) (loadReply .p5 o.a.toNat) .badOperand
  | .pow5inv o => checked (onlyA o) (loadReply .p5inv o.a.toNat) .badOperand

/-- The answer of every command word. -/
def replyWord (w : CmdWord) : Response :=
  match decodeWord w with
  | .ok i => reply i
  | .error _ => { status := .badOp }

/-- The state in which a transaction ended with a response: the answer, and the record of a refusal. -/
def conclude (s : State) (r : Response) : State :=
  { s.answered r with runFault := if r.status = .ok then s.runFault else some (s.runFault.getD r.status) }

theorem conclude_of_ok {r : Response} (h : r.status = .ok) (s : State) : conclude s r = s.answered r := by
  rw [conclude, if_pos h]; rfl

theorem conclude_refusal {st : Status} (h : st ≠ .ok) (s : State) : conclude s { status := st } = refusedWith s st := by
  rw [conclude, if_neg h]; rfl

/-- A meaning that makes one check. -/
theorem ite_conclude {ok : Bool} {r : Response} {st : Status} (hr : r.status = .ok) (hst : st ≠ .ok) (s : State) :
    (if ok then finish r s else raise st s) = .next (conclude s (checked ok r st)) := by
  cases ok
  · exact congrArg Host.Outcome.next (conclude_refusal hst s).symm
  · exact congrArg Host.Outcome.next (conclude_of_ok hr s).symm

theorem loadEntry_eq (sp : Space) (o : Fields) (s : State) :
    loadEntry sp o s = .next (conclude s (checked (onlyA o) (loadReply sp o.a.toNat) .badOperand)) := by
  rw [loadEntry, memRead_layout s.layout .direct]
  cases onlyA o
  · rfl
  · rw [if_pos rfl, checked, if_pos rfl, loadReply]
    cases memRead .direct sp o.a.toNat <;> rfl

/-- Every operation ends the selected port's transaction with its answer, in every state. -/
theorem exec_eq (i : Instr) (s : State) : exec i s = .next (conclude s (reply i)) := by
  cases i with
  | dec32 o => exact ite_conclude rfl (by decide) s
  | dec64 o => exact ite_conclude rfl (by decide) s
  | mul64 o => exact ite_conclude rfl (by decide) s
  | mulhi64 o => exact ite_conclude rfl (by decide) s
  | mulshift64 o => exact ite_conclude rfl (by decide) s
  | pow5bits o => exact ite_conclude rfl (by decide) s
  | log10pow2 o => exact ite_conclude rfl (by decide) s
  | log10pow5 o => exact ite_conclude rfl (by decide) s
  | pow5 o => exact loadEntry_eq .p5 o s
  | pow5inv o => exact loadEntry_eq .p5inv o s

theorem checked_refusal {ok : Bool} {r : Response} {st : Status} (hr : r.status ≠ .ok → r = { status := r.status })
    (h : (checked ok r st).status ≠ .ok) : checked ok r st = { status := (checked ok r st).status } := by
  cases ok
  · rfl
  · exact hr h

/-- A refused operation's answer is its code and zeros (60_exceptions.md R251). -/
theorem reply_refusal (i : Instr) (h : (reply i).status ≠ .ok) : reply i = { status := (reply i).status } := by
  have hload : ∀ sp a, (loadReply sp a).status ≠ .ok → loadReply sp a = { status := (loadReply sp a).status } := by
    intro sp a hne
    cases hm : memRead .direct sp a with
    | none => simp [loadReply, hm]
    | some t => simp [loadReply, hm] at hne
  cases i with
  | pow5 o => exact checked_refusal (hload _ _) h
  | pow5inv o => exact checked_refusal (hload _ _) h
  | dec32 o | dec64 o | mul64 o | mulhi64 o | mulshift64 o | pow5bits o | log10pow2 o | log10pow5 o =>
    exact checked_refusal (fun hne => absurd rfl hne) h

theorem replyWord_refusal (w : CmdWord) (h : (replyWord w).status ≠ .ok) :
    replyWord w = { status := (replyWord w).status } := by
  unfold replyWord at h ⊢
  cases hw : decodeWord w with
  | ok i => rw [hw] at h; exact reply_refusal i h
  | error e => rfl

section frame
variable (s : State) (r : Response)

@[simp] theorem conclude_layout : (conclude s r).layout = s.layout := rfl
@[simp] theorem conclude_ports : (conclude s r).ports = s.ports.set s.sel none := rfl
@[simp] theorem conclude_out : (conclude s r).out = some { port := s.sel, rsp := r } := rfl
@[simp] theorem conclude_sel : (conclude s r).sel = s.sel := rfl
@[simp] theorem conclude_rst : (conclude s r).rst = s.rst := rfl
theorem conclude_runFault :
    (conclude s r).runFault = if r.status = .ok then s.runFault else some (s.runFault.getD r.status) := rfl

/-- A transaction's end is its answer, but for the record. -/
theorem conclude_eq_answered : { conclude s r with runFault := s.runFault } = s.answered r := rfl

/-- The port the transaction was performed on carries its response. -/
theorem response_conclude : (conclude s r).response s.sel = some r := response_of_out rfl

/-- Its command word is gone. -/
theorem command_conclude : (conclude s r).command s.sel = none :=
  (command_congr rfl).trans (command_answered (r := r))

/-- No other port's command word is. -/
theorem command_conclude_ne {q : Nat} (h : q ≠ s.sel) : (conclude s r).command q = s.command q :=
  (command_congr rfl).trans (command_answered_ne (r := r) h)

end frame

end Sys2Proof.Machine
end

