-- ==== Sys2Proof/Laws/Logarithms.lean ====
section
/-! SUPPORT. The three fixed-point logarithms are exact on 0 to 65535 (42_pow5_table.md R152, R155, R158), by a fraction argument: the
constant of a helper, divided by its power of two, is a little below the true logarithm, and two neighbouring fractions enclose both
whose denominators add up to more than 65535, so no fraction with a denominator up to 65535 lies between. -/

namespace Sys2Proof.Machine

/-- Let `p1/q1 ≤ M/K` and `x^q2 < b^p2`, with `p2 q1 = p1 q2 + 1`. Then for `e < q1 + q2` every `p` with
`b^p ≤ x^e` satisfies `p ≤ floor(e M / K)`. -/
theorem le_fixedPoint_of_pow_le {b x M K p1 q1 p2 q2 e p : Nat} (hb : 1 < b) (hK : 0 < K) (hq1 : 0 < q1)
    (h1 : p1 * K ≤ M * q1) (h2 : x ^ q2 < b ^ p2) (hdet : p2 * q1 = p1 * q2 + 1) (he : e < q1 + q2) (he0 : 0 < e)
    (hp : b ^ p ≤ x ^ e) : p ≤ e * M / K := by
  by_contra hlt
  rw [not_le, Nat.div_lt_iff_lt_mul hK] at hlt
  -- the lower fraction is strictly below p/e
  have hlow : p1 * e < p * q1 := by
    have : p1 * e * K < p * q1 * K := by
      calc p1 * e * K = (p1 * K) * e := by ring
        _ ≤ (M * q1) * e := Nat.mul_le_mul_right _ h1
        _ = (e * M) * q1 := by ring
        _ < (p * K) * q1 := Nat.mul_lt_mul_of_pos_right hlt hq1
        _ = p * q1 * K := by ring
    exact Nat.lt_of_mul_lt_mul_right this
  -- and p/e is strictly below the upper one
  have hhigh : p * q2 < p2 * e := by
    have : b ^ (p * q2) < b ^ (p2 * e) := by
      calc b ^ (p * q2) = (b ^ p) ^ q2 := by rw [pow_mul]
        _ ≤ (x ^ e) ^ q2 := Nat.pow_le_pow_left hp q2
        _ = (x ^ q2) ^ e := by rw [← pow_mul, ← pow_mul, Nat.mul_comm]
        _ < (b ^ p2) ^ e := Nat.pow_lt_pow_left h2 he0.ne'
        _ = b ^ (p2 * e) := by rw [pow_mul]
    exact (Nat.pow_lt_pow_iff_right hb).mp this
  have key : e + q1 * (p * q2) + q2 * (p1 * e) = q1 * (p2 * e) + q2 * (p * q1) := by
    have : q1 * (p2 * e) = (p2 * q1) * e := by ring
    rw [this, hdet]
    ring
  nlinarith [Nat.mul_le_mul_left q1 hhigh, Nat.mul_le_mul_left q2 hlow]

/-- The other direction: let `x^q1` be at least `b^p1` and `M/K` strictly below `p2/q2`, with the same neighbouring fractions. Then
`b` to the power `floor(e M / K)` is at most `x^e`. -/
theorem pow_fixedPoint_le {b x M K p1 q1 p2 q2 e : Nat} (hb : 1 < b) (hq1 : 0 < q1)
    (h1 : b ^ p1 ≤ x ^ q1) (h2 : M * q2 < p2 * K) (hdet : p2 * q1 = p1 * q2 + 1) (he : e < q1 + q2) (he0 : 0 < e) :
    b ^ (e * M / K) ≤ x ^ e := by
  by_contra hlt
  rw [not_le] at hlt
  generalize hp : e * M / K = p at hlt
  have hlow : p1 * e < p * q1 := by
    have : b ^ (p1 * e) < b ^ (p * q1) := by
      calc b ^ (p1 * e) = (b ^ p1) ^ e := by rw [pow_mul]
        _ ≤ (x ^ q1) ^ e := Nat.pow_le_pow_left h1 e
        _ = (x ^ e) ^ q1 := by rw [← pow_mul, ← pow_mul, Nat.mul_comm]
        _ < (b ^ p) ^ q1 := Nat.pow_lt_pow_left hlt hq1.ne'
        _ = b ^ (p * q1) := by rw [pow_mul]
    exact (Nat.pow_lt_pow_iff_right hb).mp this
  have hhigh : p * q2 < p2 * e := by
    have hpK : p * K ≤ e * M := hp ▸ Nat.div_mul_le_self _ _
    have : p * q2 * K < p2 * e * K := by
      calc p * q2 * K = (p * K) * q2 := by ring
        _ ≤ (e * M) * q2 := Nat.mul_le_mul_right _ hpK
        _ = (M * q2) * e := by ring
        _ < (p2 * K) * e := Nat.mul_lt_mul_of_pos_right h2 he0
        _ = p2 * e * K := by ring
    exact Nat.lt_of_mul_lt_mul_right this
  have key : e + q1 * (p * q2) + q2 * (p1 * e) = q1 * (p2 * e) + q2 * (p * q1) := by
    have : q1 * (p2 * e) = (p2 * q1) * e := by ring
    rw [this, hdet]
    ring
  nlinarith [Nat.mul_le_mul_left q1 hhigh, Nat.mul_le_mul_left q2 hlow]

/-- `b^p ≤ x^q`, as the kernel evaluates it. -/
def powAtMost (b p x q : Nat) : Bool := Nat.ble (b ^ p) (x ^ q)

/-- `x^q < b^p`, as the kernel evaluates it. -/
def powBelow (x q b p : Nat) : Bool := Nat.ble (x ^ q + 1) (b ^ p)

/-- Both directions: the fixed-point value is the integer logarithm. -/
theorem log_eq_fixedPoint {b x M K p1 q1 p2 q2 e : Nat} (hb : 1 < b) (hK : 0 < K) (hq1 : 0 < q1)
    (h1 : p1 * K ≤ M * q1) (h2 : M * q2 < p2 * K) (h3 : powAtMost b p1 x q1 = true) (h4 : powBelow x q2 b p2 = true)
    (hdet : p2 * q1 = p1 * q2 + 1) (he : e < q1 + q2) : Nat.log b (x ^ e) = e * M / K := by
  rcases Nat.eq_zero_or_pos e with rfl | he0
  · simp
  · refine Nat.log_eq_of_pow_le_of_lt_pow (pow_fixedPoint_le hb hq1 (Nat.le_of_ble_eq_true h3) h2 hdet he he0) ?_
    by_contra hle
    have := le_fixedPoint_of_pow_le hb hK hq1 h1 (Nat.le_of_ble_eq_true h4) hdet he he0 (not_lt.mp hle)
    omega

theorem pow2_pow5_low : powAtMost 2 128326 5 55267 = true := by decide +kernel
theorem pow2_pow5_high : powBelow 5 21306 2 49471 = true := by decide +kernel
theorem pow10_pow2_low : powAtMost 10 8651 2 28738 = true := by decide +kernel
theorem pow10_pow2_high : powBelow 2 42039 10 12655 = true := by decide +kernel
theorem pow10_pow5_low : powAtMost 10 29384 5 42039 = true := by decide +kernel
theorem pow10_pow5_high : powBelow 5 28738 10 20087 = true := by decide +kernel

/-- R152: `POW5BITS` is the number of bits of `5^e`. -/
theorem pow5Bits_eq {e : Nat} (he : e ≤ 65535) : pow5Bits e = Nat.log 2 (5 ^ e) + 1 := by
  rw [pow5Bits, log_eq_fixedPoint (b := 2) (x := 5) (M := 163391164108059) (K := 2 ^ 46) (p1 := 128326) (q1 := 55267) (p2 := 49471)
    (q2 := 21306) (by norm_num) (by norm_num) (by norm_num) (by norm_num) (by norm_num) pow2_pow5_low pow2_pow5_high
    (by norm_num) (by omega)]

/-- R155: `LOG10POW2` is the floor of the decimal logarithm of `2^e`. -/
theorem log10Pow2_eq {e : Nat} (he : e ≤ 65535) : log10Pow2 e = Nat.log 10 (2 ^ e) := by
  rw [log10Pow2, log_eq_fixedPoint (b := 10) (x := 2) (M := 169464822037455) (K := 2 ^ 49) (p1 := 8651) (q1 := 28738) (p2 := 12655)
    (q2 := 42039) (by norm_num) (by norm_num) (by norm_num) (by norm_num) (by norm_num) pow10_pow2_low pow10_pow2_high
    (by norm_num) (by omega)]

/-- R158: `LOG10POW5` is the floor of the decimal logarithm of `5^e`. -/
theorem log10Pow5_eq {e : Nat} (he : e ≤ 65535) : log10Pow5 e = Nat.log 10 (5 ^ e) := by
  rw [log10Pow5, log_eq_fixedPoint (b := 10) (x := 5) (M := 196742565691928) (K := 2 ^ 48) (p1 := 29384) (q1 := 42039) (p2 := 20087)
    (q2 := 28738) (by norm_num) (by norm_num) (by norm_num) (by norm_num) (by norm_num) pow10_pow5_low pow10_pow5_high
    (by norm_num) (by omega)]

end Sys2Proof.Machine
end

