-- ==== Sys2Proof/Laws/Multiply.lean ====
section
/-! SUPPORT. The arithmetic of the multiplier family (41_multiply_shift.md R123, R125, R126) on numbers. -/

namespace Sys2Proof.Machine

/-- A product of two words is below `2^128`. -/
theorem mul_word_lt {a b : Nat} (ha : a < 2 ^ 64) (hb : b < 2 ^ 64) : a * b < 2 ^ 128 :=
  calc a * b < 2 ^ 64 * 2 ^ 64 := Nat.mul_lt_mul'' ha hb
    _ = 2 ^ 128 := by norm_num

/-- The product of two words is at most `(2^64 - 1)^2`. -/
theorem mul_word_le {a b : Nat} (ha : a < 2 ^ 64) (hb : b < 2 ^ 64) : a * b ≤ (2 ^ 64 - 1) * (2 ^ 64 - 1) :=
  Nat.mul_le_mul (by omega) (by omega)

/-- The sum of `MULSHIFT64` loses nothing (R125). -/
theorem mulShiftSum_le {m lo hi : Nat} (hm : m < 2 ^ 64) (hlo : lo < 2 ^ 64) (hhi : hi < 2 ^ 64) :
    mulShiftSum m lo hi ≤ 2 ^ 128 - 2 ^ 64 - 1 := by
  have h1 := mul_word_le hm hlo
  have h2 := mul_word_le hm hhi
  simp only [mulShiftSum]
  omega

/-- The sum is the product shifted right by 64 (R126). -/
theorem mulShiftSum_eq (m lo hi : Nat) : mulShiftSum m lo hi = m * (hi * 2 ^ 64 + lo) / 2 ^ 64 := by
  rw [mulShiftSum, show m * (hi * 2 ^ 64 + lo) = m * lo + 2 ^ 64 * (m * hi) by ring,
    Nat.add_mul_div_left _ _ (by norm_num)]

/-- `MULSHIFT64` is exact (R126). -/
theorem mulShift_eq {m lo hi shift : Nat} (h : 64 ≤ shift) :
    mulShift m lo hi shift = m * (hi * 2 ^ 64 + lo) / 2 ^ shift := by
  rw [mulShift, mulShiftSum_eq, Nat.div_div_eq_div_mul, ← Nat.pow_add, Nat.add_sub_cancel' h]

theorem mulShift_lt {m lo hi shift : Nat} (hm : m < 2 ^ 64) (hlo : lo < 2 ^ 64) (hhi : hi < 2 ^ 64) :
    mulShift m lo hi shift < 2 ^ 128 := by
  have := mulShiftSum_le hm hlo hhi
  exact Nat.lt_of_le_of_lt (Nat.div_le_self _ _) (by omega)

/-- The four partial products give the product (R123). -/
theorem partialProducts_eq (a b : Nat) :
    (partialProducts a b).1 * 2 ^ 64 + (partialProducts a b).2 = a * b := by
  have ha := Nat.div_add_mod a (2 ^ 32)
  have hb := Nat.div_add_mod b (2 ^ 32)
  simp only [partialProducts]
  generalize a % 2 ^ 32 = a0 at *
  generalize a / 2 ^ 32 = a1 at *
  generalize b % 2 ^ 32 = b0 at *
  generalize b / 2 ^ 32 = b1 at *
  have h : a * b = a1 * b1 * 2 ^ 64 + (a1 * b0 + a0 * b1) * 2 ^ 32 + a0 * b0 := by
    rw [← ha, ← hb]; ring
  rw [h]
  generalize a1 * b1 = w
  generalize a1 * b0 = x
  generalize a0 * b1 = y
  generalize a0 * b0 = z
  omega

end Sys2Proof.Machine
end

