-- ==== Sys2Proof/Laws/PerInstr.lean ====
section
/-! SUPPORT. The one statement made per instruction: where the encoder puts the operation code and the four operand fields
(30_encoding.md R61, R66). -/

namespace Sys2Proof.Laws.EncodeFields

/-- The five fields of an operation's command word stand where R61 puts them, and decoding reads the operation back. -/
def Statement (i : Instr) : Prop :=
  (encodeWord i).extractLsb' 200 8 = i.opcode ∧ (encodeWord i).extractLsb' 192 8 = i.fields.sh ∧
  (encodeWord i).extractLsb' 128 64 = i.fields.c ∧ (encodeWord i).extractLsb' 64 64 = i.fields.b ∧
  (encodeWord i).extractLsb' 0 64 = i.fields.a ∧ decodeOp i.opcode i.fields = .ok i

/-- The statement for an operation whose code the decoder reads back. -/
theorem of_decodeOp {i : Instr} (h : decodeOp i.opcode i.fields = .ok i) : Statement i :=
  ⟨packCommand_op _ _, packCommand_sh _ _, packCommand_c _ _, packCommand_b _ _, packCommand_a _ _, h⟩

theorem dec32 (o : Fields) : Statement (.dec32 o) := of_decodeOp rfl
theorem dec64 (o : Fields) : Statement (.dec64 o) := of_decodeOp rfl
theorem mul64 (o : Fields) : Statement (.mul64 o) := of_decodeOp rfl
theorem mulhi64 (o : Fields) : Statement (.mulhi64 o) := of_decodeOp rfl
theorem mulshift64 (o : Fields) : Statement (.mulshift64 o) := of_decodeOp rfl
theorem pow5bits (o : Fields) : Statement (.pow5bits o) := of_decodeOp rfl
theorem log10pow2 (o : Fields) : Statement (.log10pow2 o) := of_decodeOp rfl
theorem log10pow5 (o : Fields) : Statement (.log10pow5 o) := of_decodeOp rfl
theorem pow5 (o : Fields) : Statement (.pow5 o) := of_decodeOp rfl
theorem pow5inv (o : Fields) : Statement (.pow5inv o) := of_decodeOp rfl

end Sys2Proof.Laws.EncodeFields
end

