-- ==== Sys2Proof/Laws/ResponseWord.lean ====
section
/-! SUPPORT. The bits of a response word (30_encoding.md R63), and that the two codes are read back. -/

namespace Sys2Proof.Machine

/-- Bit `i` of a response word. -/
theorem getLsbD_word (r : Response) (i : Nat) : r.word.getLsbD i =
    if i < 64 then r.r0.getLsbD i else if i - 64 < 64 then r.r1.getLsbD (i - 64)
    else if i - 128 < 32 then r.e.getLsbD (i - 128)
    else if i - 160 < 1 then (BitVec.ofBool r.sign).getLsbD (i - 160)
    else if i - 161 < 3 then (clsCode r.cls).getLsbD (i - 161)
    else if i - 164 < 1 then (BitVec.ofBool r.mmShift).getLsbD (i - 164)
    else if i - 165 < 1 then (BitVec.ofBool r.acceptBounds).getLsbD (i - 165)
    else if i - 166 < 2 then (0 : BitVec 2).getLsbD (i - 166)
    else if i - 168 < 4 then r.status.code.getLsbD (i - 168)
    else (0 : BitVec 4).getLsbD (i - 172) := by
  simp only [Response.word, BitVec.getLsbD_append, Nat.sub_sub]

theorem ofCode_code (st : Status) : Status.ofCode st.code = some st := by cases st <;> rfl

theorem clsOfCode_clsCode (c : Option Cls) : clsOfCode (clsCode c) = some c := by
  rcases c with _ | c <;> [rfl; cases c <;> rfl]

theorem code_of_ofCode {v : BitVec 4} {st : Status} (h : Status.ofCode v = some st) : st.code = v := by
  unfold Status.ofCode at h
  split at h <;> cases h <;> rfl

theorem clsCode_of_clsOfCode {v : BitVec 3} {c : Option Cls} (h : clsOfCode v = some c) : clsCode c = v := by
  unfold clsOfCode at h
  split at h <;> cases h <;> rfl

end Sys2Proof.Machine
end

