-- ==== Sys2Proof/Laws/Results.lean ====
section
/-! SUPPORT. One lemma per operation for the commands it performs and one for those it refuses, with the checks read as
conditions on the fields. -/

namespace Sys2Proof.Machine

theorem checked_pass {ok : Bool} {r : Response} {st : Status} (h : ok = true) : checked ok r st = r := if_pos h

theorem checked_fail {ok : Bool} {r : Response} {st : Status} (h : ¬ ok = true) : checked ok r st = { status := st } := if_neg h

/-- An operation whose answer is `OK`. -/
theorem exec_of_reply {r : Response} (i : Instr) (h : reply i = r) (hr : r.status = .ok) (s : State) :
    exec i s = .next (s.answered r) := by
  rw [exec_eq, h, conclude_of_ok hr]

/-- An operation whose answer is a refusal. -/
theorem exec_of_refusal {st : Status} (i : Instr) (h : reply i = { status := st }) (hst : st ≠ .ok) (s : State) :
    exec i s = .next (refusedWith s st) := by
  rw [exec_eq, h, conclude_refusal hst]

variable {o : Fields} (s : State)

theorem exec_dec32 (hu : o.a.extractLsb' 32 32 = 0) (h : o.b = 0 ∧ o.c = 0 ∧ o.sh = 0) :
    exec (.dec32 o) s = .next (s.answered (decompose .binary32 o.a.toNat)) :=
  exec_of_reply (.dec32 o) (by
    rw [reply, checked_pass (by rw [Bool.and_eq_true, onlyA_iff, upperClear_iff]; exact ⟨h, hu⟩), pattern32_eq hu]) rfl s

theorem exec_dec32_refused (h : ¬ (o.a.extractLsb' 32 32 = 0 ∧ o.b = 0 ∧ o.c = 0 ∧ o.sh = 0)) :
    exec (.dec32 o) s = .next (refusedWith s .badOperand) :=
  exec_of_refusal (.dec32 o) (checked_fail (by rw [Bool.and_eq_true, onlyA_iff, upperClear_iff]; tauto)) (by decide) s

theorem exec_dec64 (h : o.b = 0 ∧ o.c = 0 ∧ o.sh = 0) :
    exec (.dec64 o) s = .next (s.answered (decompose .binary64 o.a.toNat)) :=
  exec_of_reply (.dec64 o) (checked_pass ((onlyA_iff o).mpr h)) rfl s

theorem exec_dec64_refused (h : ¬ (o.b = 0 ∧ o.c = 0 ∧ o.sh = 0)) :
    exec (.dec64 o) s = .next (refusedWith s .badOperand) :=
  exec_of_refusal (.dec64 o) (checked_fail (by rwa [onlyA_iff])) (by decide) s

/-- The 32-bit pattern of a well-formed `DEC32` command. -/
theorem exec_dec32_pattern (bits : BitVec 32) :
    exec (.dec32 { a := bits.setWidth 64 }) s = .next (s.answered (decompose .binary32 bits.toNat)) := by
  have hb := bits.isLt
  have ha : (bits.setWidth 64).toNat = bits.toNat := by rw [BitVec.toNat_setWidth, Nat.mod_eq_of_lt (by omega)]
  rw [exec_dec32 s ((upper_zero_iff _).mpr (ha ▸ hb)) ⟨rfl, rfl, rfl⟩, ha]

/-- The 64-bit pattern of a well-formed `DEC64` command. -/
theorem exec_dec64_pattern (bits : U64) :
    exec (.dec64 { a := bits }) s = .next (s.answered (decompose .binary64 bits.toNat)) :=
  exec_dec64 s ⟨rfl, rfl, rfl⟩

theorem exec_mul64 (h : o.c = 0 ∧ o.sh = 0) : exec (.mul64 o) s = .next (s.answered
    { r0 := lowWord (o.a.toNat * o.b.toNat), r1 := highWord (o.a.toNat * o.b.toNat) }) :=
  exec_of_reply (.mul64 o) (checked_pass ((onlyAB_iff o).mpr h)) rfl s

theorem exec_mul64_refused (h : ¬ (o.c = 0 ∧ o.sh = 0)) : exec (.mul64 o) s = .next (refusedWith s .badOperand) :=
  exec_of_refusal (.mul64 o) (checked_fail (by rwa [onlyAB_iff])) (by decide) s

theorem exec_mulhi64 (h : o.c = 0 ∧ o.sh = 0) :
    exec (.mulhi64 o) s = .next (s.answered { r0 := highWord (o.a.toNat * o.b.toNat) }) :=
  exec_of_reply (.mulhi64 o) (checked_pass ((onlyAB_iff o).mpr h)) rfl s

theorem exec_mulhi64_refused (h : ¬ (o.c = 0 ∧ o.sh = 0)) : exec (.mulhi64 o) s = .next (refusedWith s .badOperand) :=
  exec_of_refusal (.mulhi64 o) (checked_fail (by rwa [onlyAB_iff])) (by decide) s

theorem exec_mulshift64 (h : 65 ≤ o.sh.toNat ∧ o.sh.toNat ≤ 127) : exec (.mulshift64 o) s = .next (s.answered
    { r0 := lowWord (mulShift o.a.toNat o.b.toNat o.c.toNat o.sh.toNat),
      r1 := highWord (mulShift o.a.toNat o.b.toNat o.c.toNat o.sh.toNat) }) :=
  exec_of_reply (.mulshift64 o) (checked_pass ((shiftInDomain_iff o).mpr h)) rfl s

theorem exec_mulshift64_refused (h : ¬ (65 ≤ o.sh.toNat ∧ o.sh.toNat ≤ 127)) :
    exec (.mulshift64 o) s = .next (refusedWith s .badShift) :=
  exec_of_refusal (.mulshift64 o) (checked_fail (by rwa [shiftInDomain_iff])) (by decide) s

theorem helperChecks_iff (o : Fields) :
    (onlyA o && helperInDomain o) = true ↔ o.a.toNat ≤ 65535 ∧ o.b = 0 ∧ o.c = 0 ∧ o.sh = 0 := by
  rw [Bool.and_eq_true, onlyA_iff, helperInDomain_iff, and_comm]

theorem exec_pow5bits (h : o.a.toNat ≤ 65535 ∧ o.b = 0 ∧ o.c = 0 ∧ o.sh = 0) :
    exec (.pow5bits o) s = .next (s.answered { r0 := BitVec.ofNat 64 (pow5Bits o.a.toNat) }) :=
  exec_of_reply (.pow5bits o) (checked_pass ((helperChecks_iff o).mpr h)) rfl s

theorem exec_pow5bits_refused (h : ¬ (o.a.toNat ≤ 65535 ∧ o.b = 0 ∧ o.c = 0 ∧ o.sh = 0)) :
    exec (.pow5bits o) s = .next (refusedWith s .badOperand) :=
  exec_of_refusal (.pow5bits o) (checked_fail (by rwa [helperChecks_iff])) (by decide) s

theorem exec_log10pow2 (h : o.a.toNat ≤ 65535 ∧ o.b = 0 ∧ o.c = 0 ∧ o.sh = 0) :
    exec (.log10pow2 o) s = .next (s.answered { r0 := BitVec.ofNat 64 (log10Pow2 o.a.toNat) }) :=
  exec_of_reply (.log10pow2 o) (checked_pass ((helperChecks_iff o).mpr h)) rfl s

theorem exec_log10pow2_refused (h : ¬ (o.a.toNat ≤ 65535 ∧ o.b = 0 ∧ o.c = 0 ∧ o.sh = 0)) :
    exec (.log10pow2 o) s = .next (refusedWith s .badOperand) :=
  exec_of_refusal (.log10pow2 o) (checked_fail (by rwa [helperChecks_iff])) (by decide) s

theorem exec_log10pow5 (h : o.a.toNat ≤ 65535 ∧ o.b = 0 ∧ o.c = 0 ∧ o.sh = 0) :
    exec (.log10pow5 o) s = .next (s.answered { r0 := BitVec.ofNat 64 (log10Pow5 o.a.toNat) }) :=
  exec_of_reply (.log10pow5 o) (checked_pass ((helperChecks_iff o).mpr h)) rfl s

theorem exec_log10pow5_refused (h : ¬ (o.a.toNat ≤ 65535 ∧ o.b = 0 ∧ o.c = 0 ∧ o.sh = 0)) :
    exec (.log10pow5 o) s = .next (refusedWith s .badOperand) :=
  exec_of_refusal (.log10pow5 o) (checked_fail (by rwa [helperChecks_iff])) (by decide) s

/-- The two words of a loaded entry are the entry. -/
theorem loadReply_of_le {sp : Space} {a : Nat} (h : a ≤ maxIndex sp) : ∃ r0 r1 : U64,
    loadReply sp a = { r0 := r0, r1 := r1 } ∧ r1.toNat * 2 ^ 64 + r0.toNat = spaceEntry sp a := by
  have := spaceEntry_lt sp h
  rw [loadReply, memRead_of_le _ _ h]
  exact ⟨_, _, rfl, by rw [entry_words, BitVec.toNat_ofNat, Nat.mod_eq_of_lt (by omega)]⟩

theorem loadReply_of_gt {sp : Space} {a : Nat} (h : maxIndex sp < a) : loadReply sp a = { status := .badIndex } := by
  rw [loadReply, memRead_of_gt _ _ h]

theorem exec_pow5 (h : o.b = 0 ∧ o.c = 0 ∧ o.sh = 0) (ha : o.a.toNat ≤ 325) : ∃ r0 r1 : U64,
    exec (.pow5 o) s = .next (s.answered { r0 := r0, r1 := r1 }) ∧
    r1.toNat * 2 ^ 64 + r0.toNat = pow5Entry o.a.toNat := by
  obtain ⟨r0, r1, hr, hv⟩ := loadReply_of_le (sp := .p5) ha
  exact ⟨r0, r1, exec_of_reply (.pow5 o) ((checked_pass ((onlyA_iff o).mpr h)).trans hr) rfl s, hv⟩

theorem exec_pow5_index (h : o.b = 0 ∧ o.c = 0 ∧ o.sh = 0) (ha : 325 < o.a.toNat) :
    exec (.pow5 o) s = .next (refusedWith s .badIndex) :=
  exec_of_refusal (.pow5 o) ((checked_pass ((onlyA_iff o).mpr h)).trans (loadReply_of_gt ha)) (by decide) s

theorem exec_pow5_refused (h : ¬ (o.b = 0 ∧ o.c = 0 ∧ o.sh = 0)) :
    exec (.pow5 o) s = .next (refusedWith s .badOperand) :=
  exec_of_refusal (.pow5 o) (checked_fail (by rwa [onlyA_iff])) (by decide) s

theorem exec_pow5inv (h : o.b = 0 ∧ o.c = 0 ∧ o.sh = 0) (ha : o.a.toNat ≤ 341) : ∃ r0 r1 : U64,
    exec (.pow5inv o) s = .next (s.answered { r0 := r0, r1 := r1 }) ∧
    r1.toNat * 2 ^ 64 + r0.toNat = pow5InvEntry o.a.toNat := by
  obtain ⟨r0, r1, hr, hv⟩ := loadReply_of_le (sp := .p5inv) ha
  exact ⟨r0, r1, exec_of_reply (.pow5inv o) ((checked_pass ((onlyA_iff o).mpr h)).trans hr) rfl s, hv⟩

theorem exec_pow5inv_index (h : o.b = 0 ∧ o.c = 0 ∧ o.sh = 0) (ha : 341 < o.a.toNat) :
    exec (.pow5inv o) s = .next (refusedWith s .badIndex) :=
  exec_of_refusal (.pow5inv o) ((checked_pass ((onlyA_iff o).mpr h)).trans (loadReply_of_gt ha)) (by decide) s

theorem exec_pow5inv_refused (h : ¬ (o.b = 0 ∧ o.c = 0 ∧ o.sh = 0)) :
    exec (.pow5inv o) s = .next (refusedWith s .badOperand) :=
  exec_of_refusal (.pow5inv o) (checked_fail (by rwa [onlyA_iff])) (by decide) s

end Sys2Proof.Machine
end

