-- ==== Sys2Proof/Laws/Step.lean ====
section
/-! SUPPORT. Everything one step can do, said once (`step_cases`), and the transaction of a caller. -/

namespace Sys2Proof.Machine

variable {s t : State} {p q : Nat} {w : CmdWord}

/-- A step on a port that carries a command word concludes that port's transaction with the word's answer. -/
theorem step_command (hr : s.rst = false) (hc : s.command s.sel = some w) : step s = .next (conclude s (replyWord w)) := by
  simp only [step, hr, State.offer, command_eq_some.mp hc, replyWord]
  cases decodeWord w with
  | ok i => exact exec_eq i s
  | error e => cases e; exact congrArg Host.Outcome.next (conclude_refusal (st := .badOp) (by decide) s).symm

/-- A step on a port without a command hands nothing to the caller. -/
theorem step_idle (hr : s.rst = false) (hp : s.sel < s.ports.length) (hc : s.command s.sel = none) :
    step s = .next s.deliverNothing := by
  simp [step, hr, State.offer, getElem?_of_idle hp hc]

/-- What a step that goes on can have done: abandoned every transaction because reset is asserted, waited because the selected port
carries no command, or concluded the selected port's transaction. -/
theorem step_cases (h : step s = .next t) :
    (s.rst = true ∧ t = s.abandonAll) ∨
    (s.rst = false ∧ s.sel < s.ports.length ∧ s.command s.sel = none ∧ t = s.deliverNothing) ∨
    (s.rst = false ∧ ∃ w, s.command s.sel = some w ∧ t = conclude s (replyWord w)) := by
  cases hr : s.rst with
  | true =>
    simp only [step, hr, if_true, Host.Outcome.next.injEq] at h
    exact .inl ⟨rfl, h.symm⟩
  | false =>
    rcases Nat.lt_or_ge s.sel s.ports.length with hp | hp
    · cases hc : s.command s.sel with
      | none =>
        rw [step_idle hr hp hc, Host.Outcome.next.injEq] at h
        exact .inr (.inl ⟨rfl, hp, rfl, h.symm⟩)
      | some w =>
        rw [step_command hr hc, Host.Outcome.next.injEq] at h
        exact .inr (.inr ⟨rfl, w, rfl, h.symm⟩)
    · simp [step, hr, State.offer, List.getElem?_eq_none hp] at h

/-- The step after a caller presented a command on a port the block is ready on. -/
theorem step_present (h : s.Ready p) : step (s.present p w) = .next (conclude (s.present p w) (replyWord w)) :=
  step_command h.2.2 (command_present h.1 h.2.1)

/-- A transaction ends with the word's answer, whatever the state. -/
theorem transact_eq (h : s.Ready p) : s.transact p w = some (conclude (s.present p w) (replyWord w), replyWord w) := by
  have hr : (conclude (s.present p w) (replyWord w)).response p = some (replyWord w) := response_conclude _ _
  simp only [State.transact, step_present h, hr, Option.map_some]

/-- A transaction leaves the command words as they were before it was presented. -/
theorem ports_transact (h : s.Ready p) (r : Response) : (conclude (s.present p w) r).ports = s.ports := by
  have hp : s.ports[p]'h.1 = none := (List.getElem?_eq_some_iff.mp (getElem?_of_idle h.1 h.2.1)).2
  rw [conclude_ports, present_ports_of_ready h, present_sel, List.set_set, ← hp, List.set_getElem_self]

/-- A transaction leaves every port ready that was. -/
theorem ready_conclude (h : s.Ready p) (hq : s.Ready q) (r : Response) : (conclude (s.present p w) r).Ready q :=
  ⟨by rw [ports_transact h]; exact hq.1, by rw [command_congr (ports_transact h r)]; exact hq.2.1, hq.2.2⟩

end Sys2Proof.Machine
end

