-- ==== Sys2Proof/Tests/Slice0.lean ====
section
/-! SUPPORT. Tests, every expected value taken from the spec (the vectors of 95_test_vectors.md, named V-…, unless said otherwise),
and a witness for every statement that has hypotheses (`witness_<statement>`, at the boundary values of its clauses). -/

namespace Sys2Proof.Tests

open Sys2Proof Sys2Proof.Machine

/-- A block of one port, in one of the layouts, whose caller has presented a command word. -/
def presented (l : Layout) (w : CmdWord) : State :=
  { layout := l, ports := [some w], out := none, sel := 0, rst := false, runFault := none }

/-- The response word one step gives to a command word. -/
def answerIn (l : Layout) (w : CmdWord) : Option RspWord :=
  match step (presented l w) with
  | .next t => t.responseWord 0
  | .fault _ => none
  | .refused _ => none

/-- The state an outcome goes on with. -/
def goesOn (o : Outcome) : Option State :=
  match o with
  | .next t => some t
  | .fault _ => none
  | .refused _ => none

/-- The command word with an operation code and an operand `a`, every other field 0. -/
def opWord (op a : Nat) : CmdWord := BitVec.ofNat 208 (op * 2 ^ 200 + a)

/-- The same, under the layout `DIRECT`. -/
def answer (w : CmdWord) : Option RspWord := answerIn .direct w

/-! ### Well-formedness: an ill-formed term for each check of 30_encoding.md R62 -/

theorem test_wf_dec32 : WellFormed (.dec32 { a := 0xFFFFFFFF }) := by decide
theorem test_wf_dec32_upper : ¬ WellFormed (.dec32 { a := 0x100000000 }) := by decide
theorem test_wf_b : ¬ WellFormed (.dec64 { a := 0, b := 1 }) := by decide
theorem test_wf_c : ¬ WellFormed (.dec64 { a := 0, c := 1 }) := by decide
theorem test_wf_sh : ¬ WellFormed (.dec64 { a := 0, sh := 1 }) := by decide
theorem test_wf_mul64_c : ¬ WellFormed (.mul64 { a := 2, b := 3, c := 1 }) := by decide
theorem test_wf_mulhi64_sh : ¬ WellFormed (.mulhi64 { a := 2, b := 3, sh := 64 }) := by decide
theorem test_wf_shift_low : ¬ WellFormed (.mulshift64 { a := 1, b := 2, c := 3, sh := 64 }) := by decide
theorem test_wf_shift_high : ¬ WellFormed (.mulshift64 { a := 1, b := 2, c := 3, sh := 128 }) := by decide
theorem test_wf_pow5bits : ¬ WellFormed (.pow5bits { a := 65536 }) := by decide
theorem test_wf_log10pow2 : ¬ WellFormed (.log10pow2 { a := 65536 }) := by decide
theorem test_wf_log10pow5 : ¬ WellFormed (.log10pow5 { a := 65536 }) := by decide
theorem test_wf_pow5 : ¬ WellFormed (.pow5 { a := 326 }) := by decide
theorem test_wf_pow5inv : ¬ WellFormed (.pow5inv { a := 342 }) := by decide

/-! ### Decoding: every constructor, from a word written out by R61 and R66 -/

theorem test_decode_dec32 : decodeWord 0x010000000000000000000000000000000000000000003F800001 =
    .ok (.dec32 { a := 0x3F800001 }) := by decide
theorem test_decode_dec64 : decodeWord 0x0201000000000000000000000000000000000000000000000000 =
    .ok (.dec64 { a := 0, sh := 1 }) := by decide
theorem test_decode_mul64 : decodeWord 0x1000000000000000000100000000000000030000000000000002 =
    .ok (.mul64 { a := 2, b := 3, c := 1 }) := by decide
theorem test_decode_mulhi64 : decodeWord 0x110000000000000000000FEDCBA987654321123456789ABCDEF0 =
    .ok (.mulhi64 { a := 0x123456789ABCDEF0, b := 0x0FEDCBA987654321 }) := by decide
theorem test_decode_mulshift64 : decodeWord 0x127D200000000000000000000000000000010000000000000004 =
    .ok (.mulshift64 { a := 4, b := 1, c := 0x2000000000000000, sh := 125 }) := by decide
theorem test_decode_pow5bits : decodeWord 0x200000000000000000000000000000000000000000000000FFFF =
    .ok (.pow5bits { a := 65535 }) := by decide
theorem test_decode_log10pow2 : decodeWord 0x21000000000000000000000000000000000000000000000003C9 =
    .ok (.log10pow2 { a := 969 }) := by decide
theorem test_decode_log10pow5 : decodeWord 0x2200000000000000000000000000000000000000000000000434 =
    .ok (.log10pow5 { a := 1076 }) := by decide
theorem test_decode_pow5 : decodeWord 0x3000000000000000000000000000000000000000000000000145 =
    .ok (.pow5 { a := 325 }) := by decide
theorem test_decode_pow5inv : decodeWord 0x3100000000000000000000000000000000000000000000000156 =
    .ok (.pow5inv { a := 342 }) := by decide
/-- R67: the all-zero word and the word of all ones name no operation. -/
theorem test_decode_reserved : decodeWord 0 = .error (.badOp 0) ∧ decodeWord (BitVec.allOnes 208) = .error (.badOp 0xFF) := by
  decide
/-- The encoder writes the worked encoding of V-MSH-12. -/
theorem test_encode_mulshift64 :
    encodeWord (.mulshift64 { a := 0x43C33C19375648, b := 0x7A786C226809D496, c := 0x1A36E2EB1C432CA5, sh := 119 }) =
      0x12771A36E2EB1C432CA57A786C226809D4960043C33C19375648 := by decide
/-- The host's window: a table row's bits, operand bits above them 0, and no command above 208 bits. -/
theorem test_decodeTableWord : decodeTableWord 208 (0x30 * 2 ^ 200 + 7) = some (.pow5 { a := 7 }) ∧
    decodeTableWord 208 0 = none ∧ decodeTableWord 216 (0x30 * 2 ^ 200 + 2 ^ 208) = none := by decide
/-- 20_memory.md R44: the first byte is the least significant, the last is `op`. -/
theorem test_command_bytes : decodeBytes ([0x45, 0x01] ++ List.replicate 23 0 ++ [0x30]) = .ok (.pow5 { a := 325 }) ∧
    decodeBytes (List.replicate 26 0) = .error (.badOp 0) ∧ decodeBytes [0x30] = .error (.badLength 1) := by decide

/-- R44: byte 0 of a response is the low byte of `r0`, byte 21 holds `status` (bits 171:168); byte 0 of entry 1 of `POW5INV`
(V-TAB-13) is 0x9A, and a string one byte short is none. -/
theorem test_response_and_entry_bytes :
    Response.bytes { status := .badShift, r0 := 0x1234 } = [0x34, 0x12] ++ List.replicate 19 0 ++ [0x04] ∧
    Response.ofBytes (List.replicate 21 0) = none ∧
    (entryBytes 0x1999999999999999999999999999999A)[0]? = some 0x9A ∧
    (entryBytes 0x1999999999999999999999999999999A)[15]? = some 0x19 ∧ entryOfBytes (List.replicate 15 0) = none := by decide

/-! ### One step per operation -/

/-- V-D32-7: `ef = 2`, `mf = 0`, so `mm_shift` is 0. -/
theorem test_dec32_power_of_two : answer 0x0100000000000000000000000000000000000000000001000000 =
    some 0x0026FFFFFF6A00000000000000000000000000800000 := by decide
/-- V-D32-17: a negative NaN whose payload is all ones. -/
theorem test_dec32_nan : answer 0x01000000000000000000000000000000000000000000FFFFFFFF =
    some 0x001B7FFFFFFF000000000000000000000000007FFFFF := by decide
/-- V-D64-5: the smallest normal, `mm_shift` stays 1. -/
theorem test_dec64_smallest_normal : answer 0x0200000000000000000000000000000000000010000000000000 =
    some 0x0036FFFFFBCC00000000000000000010000000000000 := by decide
/-- V-D64-17: negative infinity. -/
theorem test_dec64_negative_infinity : answer 0x020000000000000000000000000000000000FFF0000000000000 =
    some 0x00297FFFFFFF00000000000000000000000000000000 := by decide
/-- V-MUL-7: four different halves. -/
theorem test_mul64 : answer 0x100000000000000000000FEDCBA987654321123456789ABCDEF0 =
    some 0x0000000000000121FA00AD77D7422236D88FE5618CF0 := by decide
/-- V-ERR-9: a field that must be zero is not. -/
theorem test_mul64_refused : answer 0x1000000000000000000100000000000000030000000000000002 =
    some 0x02000000000000000000000000000000000000000000 := by decide
/-- V-MHI-4: the largest product. -/
theorem test_mulhi64 : answer 0x11000000000000000000FFFFFFFFFFFFFFFFFFFFFFFFFFFFFFFF =
    some 0x0000000000000000000000000000FFFFFFFFFFFFFFFE := by decide
/-- V-ERR-10: the shift belongs to `MULSHIFT64` only. -/
theorem test_mulhi64_refused : answer 0x1140000000000000000000000000000000030000000000000002 =
    some 0x02000000000000000000000000000000000000000000 := by decide
/-- V-MSH-4: largest operands, largest shift, `r1` not 0. -/
theorem test_mulshift64 : answer 0x127FFFFFFFFFFFFFFFFFFFFFFFFFFFFFFFFFFFFFFFFFFFFFFFFF =
    some 0x0000000000000000000000000001FFFFFFFFFFFFFFFD := by decide
/-- V-ERR-20: shift 64 is outside the open interval. -/
theorem test_mulshift64_refused : answer 0x1240000000000000000300000000000000020000000000000001 =
    some 0x04000000000000000000000000000000000000000000 := by decide
/-- V-LOG-7: the bit count steps by 3 at 28. -/
theorem test_pow5bits : answer 0x200000000000000000000000000000000000000000000000001C =
    some 0x00000000000000000000000000000000000000000042 := by decide
/-- V-ERR-11: argument 65536. -/
theorem test_pow5bits_refused : answer 0x2000000000000000000000000000000000000000000000010000 =
    some 0x02000000000000000000000000000000000000000000 := by decide
/-- V-LOG-28: the largest argument. -/
theorem test_log10pow2 : answer 0x210000000000000000000000000000000000000000000000FFFF =
    some 0x00000000000000000000000000000000000000004D10 := by decide
/-- V-LOG-36. -/
theorem test_log10pow5 : answer 0x2200000000000000000000000000000000000000000000000434 =
    some 0x000000000000000000000000000000000000000002F0 := by decide
/-- V-ERR-13: argument 2^63. -/
theorem test_log10pow5_refused : answer 0x2200000000000000000000000000000000008000000000000000 =
    some 0x02000000000000000000000000000000000000000000 := by decide
/-- V-TAB-9, offset 2, under the layout `COMPRESSED`. -/
theorem test_pow5_compressed : answerIn .compressed 0x3000000000000000000000000000000000000000000000000053 =
    some 0x0000000000001A5B01B605557AC57EA147F492186032 := by decide
/-- V-ERR-16: no wrap to entry 0. -/
theorem test_pow5_refused : answer 0x3000000000000000000000000000000000000000000100000000 =
    some 0x03000000000000000000000000000000000000000000 := by decide
/-- V-TAB-18, offset 2, under the layout `COMPRESSED`. -/
theorem test_pow5inv_compressed : answerIn .compressed 0x31000000000000000000000000000000000000000000000000CA =
    some 0x0000000000001F5A549627A36BAD8F2D700AE4010BF1 := by decide
/-- V-TAB-21, the last index. -/
theorem test_pow5inv_last : answer 0x3100000000000000000000000000000000000000000000000155 =
    some 0x00000000000012AB168CC36CACBF0958F94B348498A1 := by decide
/-- V-ERR-4: every bit set; the other fields are not looked at. -/
theorem test_bad_op : answer (BitVec.allOnes 208) = some 0x01000000000000000000000000000000000000000000 := by decide
/-- V-ERR-19: two causes, `BAD_OPERAND` wins. -/
theorem test_priority : answer 0x3000000000000000000000000000000000010000000000000190 =
    some 0x02000000000000000000000000000000000000000000 := by decide

/-! ### The machine around the operations -/

/-- 10_state.md R22: nothing presented, nothing happens. -/
theorem test_idle : step State.reset = .next State.reset := rfl
/-- A selection of a port that does not exist is the model's one fault (log entry 9). -/
theorem test_absent_port : step { State.reset with sel := 1 } = .fault .absentPort := rfl
/-- 70_reset_and_hazards.md R282: a transaction cut by reset gets no response. -/
theorem test_reset_abandons : goesOn (step { presented .direct 0x10 with rst := true }) =
    some { State.reset with rst := true } := by decide
/-- The host's window on the machine: the presented word is the very next command. -/
theorem test_withFetchWord : goesOn (step (State.reset.withFetchWord 208 (0x31 * 2 ^ 200 + 1))) =
    some (State.reset.answered { r0 := 0x999999999999999A, r1 := 0x1999999999999999 }) := by decide
/-- 10_state.md R21: a response is not retained, so after a step that performs no transaction none is there. -/
theorem test_response_gone : goesOn (step (State.reset.answered { r0 := 5 })) = some State.reset := by decide
/-- The model's choice where a second command meets a transaction in progress (log entry 13): the port keeps its word. -/
theorem test_busy_port_keeps_its_word : (presented .direct 0x10).present 0 0x20 = presented .direct 0x10 := by decide
/-- 60_exceptions.md R257: the first refusal is what the record holds, and a later one does not change it. -/
theorem test_record : goesOn (step { presented .direct 0 with runFault := some .badIndex }) =
    some { State.reset with out := some { port := 0, rsp := { status := .badOp } }, runFault := some .badIndex } := by
  decide
/-- The sizes of the arrays (00_scope.md R7; 10_state.md R26). -/
theorem test_sizes : romP5.length = 326 ∧ romP5Inv.length = 342 ∧ romBase.length = 26 ∧ romSplit.length = 13 ∧
    romSplitInv.length = 15 ∧ romOffsWords.length = 21 ∧ romOffsInvWords.length = 22 := by decide +kernel
/-- 30_encoding.md R71: the 52 digits of a line's command, `op` first (P1 of 95_test_vectors.md). -/
theorem test_hex : String.ofList (Line.log10pow2 19).hex = "2100000000000000000000000000000000000000000000000013" := by
  decide
/-- R71: the names of a decomposer line are bound in the order `r0`, `e`, `sign`, `cls`, `mm_shift`, `accept_bounds` (P2), and a
refused line binds nothing. -/
theorem test_bound_values : boundValues (.dec64 { a := 0x3FB999999999999A })
      { r0 := 7205759403792794, e := BitVec.ofInt 32 (-58), cls := some .normal, mmShift := true, acceptBounds := true } =
      [7205759403792794, -58, 0, 3, 1, 1] ∧
    boundValues (.pow5 { a := 326 }) { status := .badIndex } = [] := by decide

/-! ### Witnesses: the hypotheses of every statement can be met -/

/-- The fields beside `a` are 0. -/
abbrev RestZero (o : Fields) : Prop := o.b = 0 ∧ o.c = 0 ∧ o.sh = 0

/-- A legal command of a logarithm helper. -/
abbrev HelperLegal (o : Fields) : Prop := o.a.toNat ≤ 65535 ∧ RestZero o

theorem ready_reset : State.reset.Ready 0 := ⟨by decide, rfl, rfl⟩

/-- A block of three ports, the second of which has a transaction in progress. -/
def threePorts : State :=
  { layout := .compressed, ports := [none, some (opWord 0x20 0), none], out := none, sel := 1, rst := false, runFault := none }

theorem ready_threePorts : threePorts.Ready 0 ∧ threePorts.Ready 2 := ⟨⟨by decide, rfl, rfl⟩, ⟨by decide, rfl, rfl⟩⟩

/-- Each of the ten codes, and a code that is none of them. -/
theorem witness_OpcodeAloneSelects :
    (opWord 0x01 0).extractLsb' 200 8 = 0x01 ∧ (opWord 0x02 0).extractLsb' 200 8 = 0x02 ∧
    (opWord 0x10 0).extractLsb' 200 8 = 0x10 ∧ (opWord 0x11 0).extractLsb' 200 8 = 0x11 ∧
    (opWord 0x12 0).extractLsb' 200 8 = 0x12 ∧ (opWord 0x20 0).extractLsb' 200 8 = 0x20 ∧
    (opWord 0x21 0).extractLsb' 200 8 = 0x21 ∧ (opWord 0x22 0).extractLsb' 200 8 = 0x22 ∧
    (opWord 0x30 0).extractLsb' 200 8 = 0x30 ∧ (opWord 0x31 0).extractLsb' 200 8 = 0x31 ∧
    (opWord 0x13 0).extractLsb' 200 8 ∉
      [0x01#8, 0x02, 0x10, 0x11, 0x12, 0x20, 0x21, 0x22, 0x30, 0x31] := by decide
/-- The first and the last byte, and strings one byte too short and one too long. -/
theorem witness_CommandBytesLittleEndian : 0 < 26 ∧ 25 < 26 ∧ (List.replicate 25 (0 : Byte)).length ≠ 26 ∧
    (List.replicate 27 (0 : Byte)).length ≠ 26 := by decide
/-- The first and the last digit. -/
theorem witness_HostLineDigits : 0 < 52 ∧ 51 < 52 := by decide
theorem witness_ResponseWordLayout :
    (answer (opWord 0x01 0)).map (fun w => w.extractLsb' 161 3) = some 1 := by decide
/-- Ready ports, the last one of three among them, and a word on each side of every boundary of R256. -/
theorem witness_RefusalPriority : State.reset.Ready 0 ∧ threePorts.Ready 2 ∧
    answer 0x01000000000000000000000000000000000000000000FFFFFFFF ≠ answer 0x0100000000000000000000000000000000000000000100000000 ∧
    answer 0x200000000000000000000000000000000000000000000000FFFF ≠ answer 0x2000000000000000000000000000000000000000000000010000 ∧
    answer 0x3000000000000000000000000000000000000000000000000145 ≠ answer 0x3000000000000000000000000000000000000000000000000146 ∧
    answer 0x3100000000000000000000000000000000000000000000000155 ≠ answer 0x3100000000000000000000000000000000000000000000000156 ∧
    answer 0x1241000000000000000300000000000000020000000000000001 ≠ answer 0x1240000000000000000300000000000000020000000000000001 ∧
    answer 0x127F000000000000000300000000000000020000000000000001 ≠ answer 0x1280000000000000000300000000000000020000000000000001 :=
  ⟨ready_reset, ready_threePorts.2, by decide⟩
theorem witness_ReservedOpcodesRefused : State.reset.Ready 0 ∧
    (opWord 0x32 5).extractLsb' 200 8 ∉ [0x01#8, 0x02, 0x10, 0x11, 0x12, 0x20, 0x21, 0x22, 0x30, 0x31] :=
  ⟨ready_reset, by decide⟩
/-- The lowest bit of each field that must be 0, the lowest of the upper half of `a` for `DEC32`, and a word that decodes. -/
theorem witness_MustBeZeroFieldsRefused :
    (({ a := 0x100000000 } : Fields).a.extractLsb' 32 32 ≠ 0 ∧ ({ a := 0, b := 1 } : Fields).b ≠ 0 ∧
      ({ a := 0, c := 1 } : Fields).c ≠ 0 ∧ ({ a := 0, sh := 1 } : Fields).sh ≠ 0) ∧
    decodeWord (opWord 0x30 0) = .ok (.pow5 { a := 0 }) := by decide
/-- A refused transaction on the last port of three, and ports for the next transaction, that one among them. -/
theorem witness_RefusalLeavesNothingBehind : threePorts.Ready 2 ∧ threePorts.Ready 0 ∧ (0 : Nat) ≠ 2 ∧
    (threePorts.transact 2 0).map (fun x => x.2.status) = some .badOp :=
  ⟨ready_threePorts.2, ready_threePorts.1, by decide, by decide⟩
/-- A step in a state with a record, and an accepted and a refused transaction without one. -/
theorem witness_RecordedFaultStays :
    goesOn (step { State.reset with runFault := some .badShift }) = some { State.reset with runFault := some .badShift } ∧
    State.reset.runFault = none ∧ (State.reset.transact 0 0).map (fun x => x.2.status) = some .badOp ∧
    (State.reset.transact 0 (opWord 0x20 0)).map (fun x => x.2.status) = some .ok := by decide

/-- The largest pattern `DEC32` accepts and the smallest `a` it refuses. -/
theorem witness_Dec32Result :
    (({ a := 0xFFFFFFFF } : Fields).a.extractLsb' 32 32 = 0 ∧ RestZero { a := 0xFFFFFFFF }) ∧
    ¬ (({ a := 0x100000000 } : Fields).a.extractLsb' 32 32 = 0 ∧ RestZero { a := 0x100000000 }) := by decide
theorem witness_Dec64Result : RestZero { a := 0xFFFFFFFFFFFFFFFF } ∧ ¬ RestZero { a := 0, b := 1 } ∧
    ¬ RestZero { a := 0, sh := 1 } := by decide
/-- Infinity, a NaN, and the largest finite number. -/
theorem witness_SentinelMarksInfinityAndNan : (decompose .binary32 0x7F800000).cls = some .inf ∧
    (decompose .binary32 0x7F800001).cls = some .nan ∧ (decompose .binary32 0x7F7FFFFF).cls = some .normal ∧
    (decompose .binary64 0x7FF0000000000000).cls = some .inf ∧ (decompose .binary64 0xFFFFFFFFFFFFFFFF).cls = some .nan ∧
    (decompose .binary64 0x7FEFFFFFFFFFFFFF).cls = some .normal := by decide
/-- The largest finite pattern of each format. -/
theorem witness_FloatValueIsFourM2TimesTwoToE2 : IsFinite .binary32 0xFF7FFFFF ∧ IsFinite .binary64 0x7FEFFFFFFFFFFFFF := by
  unfold IsFinite; decide

/-- A finite pattern whose significand is not 0 is not the value 0. -/
theorem floatValue_ne_zero {f : Format} {bits : Nat} (h : floatSignificand f bits ≠ 0) : floatValue f bits ≠ 0 := by
  unfold floatValue
  refine mul_ne_zero (mul_ne_zero ?_ (Nat.cast_ne_zero.mpr h)) (zpow_ne_zero _ (by norm_num))
  split <;> norm_num

/-- The smallest subnormal, the smallest normal, the first power of two whose lower neighbour is half as far, and the last finite
number below the largest one, whose upper neighbour is finite. -/
theorem witness_MmShiftGivesTheMidpoints :
    (IsFinite .binary32 1 ∧ floatValue .binary32 1 ≠ 0 ∧ IsFinite .binary32 2) ∧
    (IsFinite .binary32 0x01000000 ∧ floatValue .binary32 0x01000000 ≠ 0 ∧ IsFinite .binary32 0x01000001) ∧
    (IsFinite .binary64 0x0010000000000000 ∧ floatValue .binary64 0x0010000000000000 ≠ 0 ∧
      IsFinite .binary64 0x0010000000000001) ∧
    (IsFinite .binary64 0x7FEFFFFFFFFFFFFE ∧ floatValue .binary64 0x7FEFFFFFFFFFFFFE ≠ 0 ∧
      IsFinite .binary64 0x7FEFFFFFFFFFFFFF) := by
  refine ⟨⟨?_, floatValue_ne_zero ?_, ?_⟩, ⟨?_, floatValue_ne_zero ?_, ?_⟩, ⟨?_, floatValue_ne_zero ?_, ?_⟩, ?_,
    floatValue_ne_zero ?_, ?_⟩ <;> (try unfold IsFinite) <;> decide

theorem witness_Mul64Result : ((0 : U64) = 0 ∧ (0 : BitVec 8) = 0) ∧ ¬ ((1 : U64) = 0 ∧ (0 : BitVec 8) = 0) := by decide
theorem witness_Mulhi64Result : ((0 : U64) = 0 ∧ (0 : BitVec 8) = 0) ∧ ¬ ((0 : U64) = 0 ∧ (64 : BitVec 8) = 0) := by decide
/-- Both ends of the accepted shifts and both refused neighbours. -/
theorem witness_Mulshift64Result : (65 ≤ (65 : BitVec 8).toNat ∧ (65 : BitVec 8).toNat ≤ 127) ∧
    (65 ≤ (127 : BitVec 8).toNat ∧ (127 : BitVec 8).toNat ≤ 127) ∧ (64 : BitVec 8).toNat ≤ 64 ∧
    128 ≤ (128 : BitVec 8).toNat := by decide
/-- The largest operands the engine uses, at its smallest shift (V-MSH-13 and 42_pow5_table.md R165). -/
theorem witness_MulshiftResultWidth : 65 ≤ (118 : BitVec 8).toNat ∧ (118 : BitVec 8).toNat ≤ 127 ∧
    (0x7FFFFFFFFFFFFE : U64).toNat ≤ 2 ^ 55 - 2 ∧
    (0x2000000000000000 : U64).toNat * 2 ^ 64 + (1 : U64).toNat < 2 ^ 126 ∧ 118 ≤ (118 : BitVec 8).toNat := by decide
/-- The smallest and the largest argument, the smallest refused one, and a field that is not 0. -/
theorem witness_Pow5bitsResult : HelperLegal { a := 0 } ∧ HelperLegal { a := 65535 } ∧ ¬ HelperLegal { a := 65536 } ∧
    ¬ HelperLegal { a := 0, b := 1 } := by decide
theorem witness_Log10pow2Result : HelperLegal { a := 0 } ∧ HelperLegal { a := 65535 } ∧ ¬ HelperLegal { a := 65536 } ∧
    ¬ HelperLegal { a := 0, b := 1 } := by decide
theorem witness_Log10pow5Result : HelperLegal { a := 0 } ∧ HelperLegal { a := 65535 } ∧ ¬ HelperLegal { a := 65536 } ∧
    ¬ HelperLegal { a := 0, b := 1 } := by decide
theorem witness_HelpersAreExactLogarithms : HelperLegal { a := 0 } ∧ HelperLegal { a := 65535 } := by decide
theorem witness_HelperArithmeticFits64 : 65535 ≤ 65535 := by decide
/-- The last index, the first refused one, the largest one, and a field that is not 0. -/
theorem witness_Pow5Result : (RestZero { a := 325 } ∧ (325 : U64).toNat ≤ 325) ∧ (RestZero { a := 326 } ∧ 325 < (326 : U64).toNat) ∧
    (RestZero { a := BitVec.allOnes 64 } ∧ 325 < (BitVec.allOnes 64).toNat) ∧ ¬ RestZero { a := 400, b := 1 } := by decide
theorem witness_Pow5invResult : (RestZero { a := 341 } ∧ (341 : U64).toNat ≤ 341) ∧
    (RestZero { a := 342 } ∧ 341 < (342 : U64).toNat) ∧ ¬ RestZero { a := 0, c := 1 } := by decide
/-- A step and an operation that go on. -/
theorem witness_LayoutIsInvisible : goesOn (step State.reset) = some State.reset ∧
    goesOn (exec (.pow5 { a := 0 }) State.reset) = some (State.reset.answered { r1 := 0x1000000000000000 }) := by decide
theorem witness_CompressedEqualsDefinition : 325 ≤ 325 ∧ 341 ≤ 341 := by decide
/-- The last indices, a multiple of 26 and a neighbour of one. -/
theorem witness_OffsetsRepairTheEstimates : 325 ≤ 325 ∧ 341 ≤ 341 ∧ 312 % 26 = 0 ∧ 311 % 26 ≠ 0 := by decide
theorem witness_PairedWordProductIsExact : (298023223876953125 : U64).toNat < 2 ^ 59 ∧
    (0x2000000000000000 : U64).toNat < 2 ^ 62 := by decide
theorem witness_LoadedEntryRanges : (RestZero { a := 325 } ∧ (325 : U64).toNat ≤ 325) ∧
    (RestZero { a := 341 } ∧ (341 : U64).toNat ≤ 341) ∧ RestZero { a := 0 } := by decide
theorem witness_ApproximationDirection : (RestZero { a := 325 } ∧ (325 : U64).toNat ≤ 325) ∧
    (RestZero { a := 341 } ∧ (341 : U64).toNat ≤ 341) ∧ (RestZero { a := 53 } ∧ (53 : U64).toNat ≤ 53) := by decide
theorem witness_SelectorNeverRefused : 0 ≤ 969 ∧ 969 ≤ 969 ∧ (1 ≤ 1 ∧ 1 ≤ 1076) ∧ (1 ≤ 1076 ∧ 1076 ≤ 1076) := by decide

theorem witness_StepRunsTheCommand : (presented .direct (opWord 0x20 0)).rst = false ∧
    (presented .direct (opWord 0x20 0)).command (presented .direct (opWord 0x20 0)).sel = some (opWord 0x20 0) ∧
    decodeWord (opWord 0x20 0) = .ok (.pow5bits { a := 0 }) := by decide
theorem witness_StepWithoutACommand : (State.reset.rst = false ∧ State.reset.sel < State.reset.ports.length ∧
      State.reset.command State.reset.sel = none) ∧
    State.reset.ports.length ≤ ({ State.reset with sel := 1 } : State).sel := by decide
theorem witness_OperationFrame : (0 : Nat) ≠ threePorts.sel ∧
    (goesOn (exec (.pow5 { a := 326 }) threePorts) = some
      { threePorts.answered { status := .badIndex } with runFault := some .badIndex }) := by decide

/-- A state that meets the invariant, with a transaction in progress on one port and a response on the other, and a step from it. -/
def busyAndAnswered : State :=
  { layout := .direct, ports := [none, some (opWord 0x20 0)]
    out := some { port := 0, rsp := { r0 := 1, e := 0x7FFFFFFF, cls := some .nan } }
    sel := 1, rst := false, runFault := none }

theorem witness_StepKeepsInv : busyAndAnswered.Inv ∧
    step busyAndAnswered = .next { busyAndAnswered with ports := [none, none], out := some { port := 1, rsp := { r0 := 1 } } } := by
  refine ⟨⟨by decide, ?_, ?_, by decide, ?_⟩, rfl⟩
  · intro p r h
    cases out_of_response h
    decide
  · intro p r h
    cases out_of_response h
    refine ⟨fun h => absurd rfl h, fun c h => ?_, fun h => by cases h⟩
    cases h
    exact ⟨rfl, by unfold clsRange; decide⟩
  · intro _ p r h
    cases out_of_response h
    rfl

theorem witness_ResetAbandonsTransactions : ({ threePorts with rst := true } : State).rst = true ∧
    ({ threePorts with rst := true } : State).command 1 = some (opWord 0x20 0) := by decide
/-- Three transactions on two ports, a refused one among them. -/
theorem witness_ResponsesIgnoreHistory : ∀ c ∈ [(2, 0), (0, opWord 0x20 0), (2, opWord 0x31 0)], threePorts.Ready c.1 := by
  unfold State.Ready; decide
/-- A port with a transaction in progress and one without, and ready ports of two machines. -/
theorem witness_PortsDoNotInteract : (0 : Nat) ≠ 1 ∧ 0 < threePorts.ports.length ∧ 1 < threePorts.ports.length ∧
    threePorts.rst = false ∧ threePorts.Ready 2 ∧ State.reset.Ready 0 :=
  ⟨by decide, by decide, by decide, rfl, ready_threePorts.2, ready_reset⟩
theorem witness_EveryTransactionCompletes : State.reset.Ready 0 ∧ threePorts.Ready 0 ∧ threePorts.Ready 2 :=
  ⟨ready_reset, ready_threePorts⟩
/-- A step that performs a transaction, and one that performs none in a state with a response. -/
theorem witness_NothingIsRetained : (goesOn (step (presented .direct 0))).bind (fun t => t.response 0) = some { status := .badOp } ∧
    (goesOn (step (State.reset.answered {}))).map (fun t => t.response 0) = some none := by decide
theorem witness_TransactionOnceStartedRuns : threePorts.rst = false ∧ threePorts.command 1 = some (opWord 0x20 0) := by decide
/-- The first and the last byte of each, and strings one byte too short and one too long. -/
theorem witness_ResponseAndEntryBytesLittleEndian : (0 < 22 ∧ 21 < 22) ∧ (0 < 16 ∧ 15 < 16) ∧
    (List.replicate 21 (0 : Byte)).length ≠ 22 ∧ (List.replicate 23 (0 : Byte)).length ≠ 22 ∧
    (List.replicate 15 (0 : Byte)).length ≠ 16 ∧ (List.replicate 17 (0 : Byte)).length ≠ 16 := by decide

end Sys2Proof.Tests
end

section
/-! PROOFS. The encoding (30_encoding.md): the operation code, the bits of the response word, the refusals that the code and the
must-be-zero fields decide, and the pseudo-operations. -/

namespace Sys2Proof

/-- A code outside the map of R66 is refused by name, whatever the fields hold (R67). -/
theorem decodeOp_reserved {op : BitVec 8} (o : Fields)
    (h : op ∉ [0x01#8, 0x02, 0x10, 0x11, 0x12, 0x20, 0x21, 0x22, 0x30, 0x31]) : decodeOp op o = .error (.badOp op) := by
  unfold decodeOp
  split
  case h_11 => rfl
  all_goals exact absurd (by decide) h

/-- Of the 256 codes, 246 are outside the map (R67). -/
theorem reservedCodes_length : ((List.range 256).filter fun n =>
    BitVec.ofNat 8 n ∉ [0x01#8, 0x02, 0x10, 0x11, 0x12, 0x20, 0x21, 0x22, 0x30, 0x31]).length = 246 := by
  decide +kernel

/-- A word whose code is known is read by that code alone (R66). -/
theorem decodeWord_of_op {w : CmdWord} {op : BitVec 8} (h : w.extractLsb' 200 8 = op) :
    decodeWord w = decodeOp op (CmdWord.fields w) := by
  rw [decodeWord, CmdWord.op, h]

/-- The decoder reads an operation only from that operation's own code and fields. -/
theorem opcode_fields_of_decodeOp {op : BitVec 8} {o : Fields} {i : Instr} (h : decodeOp op o = .ok i) :
    i.opcode = op ∧ i.fields = o := by
  unfold decodeOp at h
  split at h <;> cases h <;> exact ⟨rfl, rfl⟩

/-- A command word that names an operation is that operation's word. -/
theorem encodeWord_of_decodeWord {w : CmdWord} {i : Instr} (h : decodeWord w = .ok i) : encodeWord i = w := by
  obtain ⟨hop, hfields⟩ := opcode_fields_of_decodeOp h
  rw [encodeWord, hop, hfields, packCommand_unpack]

/-- The upper nibble of an operation's code is its family (R66). -/
theorem opcode_upperNibble (i : Instr) : i.opcode.extractLsb' 4 4 = i.family.code := by
  cases i <;> simp [Instr.opcode, Instr.family, Family.code]

/-- The family stands in bits 207:204 of an operation's word (R66). -/
theorem encodeWord_upperNibble (i : Instr) : (encodeWord i).extractLsb' 204 4 = i.family.code := by
  have hslice : (encodeWord i).extractLsb' 204 4 = ((encodeWord i).extractLsb' 200 8).extractLsb' 4 4 := by
    apply BitVec.eq_of_getLsbD_eq
    intro k hk
    simp only [BitVec.getLsbD_extractLsb', hk, show 4 + k < 8 by omega, decide_true, Bool.true_and, ← Nat.add_assoc]
  rw [hslice, encodeWord, packCommand_op, opcode_upperNibble]

end Sys2Proof

namespace Sys2Proof.Machine

/-! ### The bits of a response word (R63) -/

section word
variable (r : Response)

/-- A slice of a response word is read bit by bit. -/
theorem word_slice {lo n : Nat} {v : BitVec n} (h : ∀ i < n, r.word.getLsbD (lo + i) = v.getLsbD i) :
    r.word.extractLsb' lo n = v := by
  refine BitVec.eq_of_getLsbD_eq fun i hi => ?_
  rw [BitVec.getLsbD_extractLsb', h i hi, decide_eq_true hi, Bool.true_and]

@[simp] theorem word_reservedTop : r.word.extractLsb' 172 4 = 0 := word_slice r fun i hi => by
  simp (disch := omega) only [getLsbD_word, if_neg, Nat.add_sub_cancel_left]

@[simp] theorem word_status : r.word.extractLsb' 168 4 = r.status.code := word_slice r fun i hi => by
  simp (disch := omega) only [getLsbD_word, if_neg, if_pos, Nat.add_sub_cancel_left]

@[simp] theorem word_reservedMiddle : r.word.extractLsb' 166 2 = 0 := word_slice r fun i hi => by
  simp (disch := omega) only [getLsbD_word, if_neg, if_pos, Nat.add_sub_cancel_left]

theorem word_acceptBounds : r.word.getLsbD 165 = r.acceptBounds :=
  (getLsbD_word r 165).trans (BitVec.getLsbD_ofBool ..)

theorem word_mmShift : r.word.getLsbD 164 = r.mmShift :=
  (getLsbD_word r 164).trans (BitVec.getLsbD_ofBool ..)

@[simp] theorem word_cls : r.word.extractLsb' 161 3 = clsCode r.cls := word_slice r fun i hi => by
  simp (disch := omega) only [getLsbD_word, if_neg, if_pos, Nat.add_sub_cancel_left]

theorem word_sign : r.word.getLsbD 160 = r.sign :=
  (getLsbD_word r 160).trans (BitVec.getLsbD_ofBool ..)

@[simp] theorem word_e : r.word.extractLsb' 128 32 = r.e := word_slice r fun i hi => by
  simp (disch := omega) only [getLsbD_word, if_neg, if_pos, Nat.add_sub_cancel_left]

@[simp] theorem word_r1 : r.word.extractLsb' 64 64 = r.r1 := word_slice r fun i hi => by
  simp (disch := omega) only [getLsbD_word, if_neg, if_pos, Nat.add_sub_cancel_left]

@[simp] theorem word_r0 : r.word.extractLsb' 0 64 = r.r0 := word_slice r fun i hi => by
  rw [Nat.zero_add, getLsbD_word, if_pos hi]

end word

/-- The codes 5 to 15 are no status (R63). -/
theorem Status.code_le (st : Status) : st.code.toNat ≤ 4 := by
  cases st <;> decide

/-- The codes 6 and 7 are no class (R63). -/
theorem clsCode_le (c : Option Cls) : (clsCode c).toNat ≤ 5 := by
  rcases c with _ | c
  · decide
  · cases c <;> decide

/-- A check adds no class to an answer without one: its refusal has none. -/
theorem checked_cls_eq_none {ok : Bool} {r : Response} {st : Status} (h : r.cls = none) : (checked ok r st).cls = none := by
  cases ok
  · rfl
  · exact h

theorem loadReply_cls (sp : Space) (a : Nat) : (loadReply sp a).cls = none := by
  unfold loadReply
  split <;> rfl

/-- A checked answer with a class passed its check. -/
theorem status_of_checked_cls_ne_none {ok : Bool} {r : Response} {st : Status} (hr : r.status = .ok)
    (h : (checked ok r st).cls ≠ none) : (checked ok r st).status = .ok := by
  cases ok
  · exact absurd rfl h
  · exact hr

/-- Only an accepted `DEC32` or `DEC64` command is answered with a class (R63). -/
theorem reply_cls_ne_none {i : Instr} (h : (reply i).cls ≠ none) :
    (reply i).status = .ok ∧ ∃ o, i = .dec32 o ∨ i = .dec64 o := by
  cases i with
  | dec32 o => exact ⟨status_of_checked_cls_ne_none rfl h, o, .inl rfl⟩
  | dec64 o => exact ⟨status_of_checked_cls_ne_none rfl h, o, .inr rfl⟩
  | pow5 o | pow5inv o => exact absurd (checked_cls_eq_none (loadReply_cls _ _)) h
  | mul64 o | mulhi64 o | mulshift64 o | pow5bits o | log10pow2 o | log10pow5 o => exact absurd (checked_cls_eq_none rfl) h

/-- The class code is 0 exactly where there is no class. -/
theorem clsCode_eq_zero_iff (c : Option Cls) : clsCode c = 0 ↔ c = none := by
  rcases c with _ | c
  · decide
  · cases c <;> decide

/-- A caller's transaction changes nothing but the selection, what is handed over, and the model's record (log entry 8). -/
theorem conclude_present {s : State} {p : Nat} (w : CmdWord) (h : s.Ready p) (r : Response) :
    { conclude (s.present p w) r with runFault := s.runFault } = { s with sel := p, out := some { port := p, rsp := r } } := by
  calc { conclude (s.present p w) r with runFault := s.runFault }
      = { s with ports := (conclude (s.present p w) r).ports, sel := p, out := some { port := p, rsp := r } } := rfl
    _ = { s with sel := p, out := some { port := p, rsp := r } } := by rw [ports_transact h]

/-- The answer to a code that names no operation (R67). -/
theorem replyWord_reserved {w : CmdWord}
    (h : w.extractLsb' 200 8 ∉ [0x01#8, 0x02, 0x10, 0x11, 0x12, 0x20, 0x21, 0x22, 0x30, 0x31]) :
    replyWord w = { status := .badOp } := by
  rw [replyWord, decodeWord_of_op rfl, decodeOp_reserved _ h]

/-- A refused operation goes on, and its answer is the code and zeros, but for the record (log entry 8). -/
theorem answered_of_exec_refused {i : Instr} {s : State} {st : Status} (h : exec i s = .next (refusedWith s st)) :
    ∃ t : State, exec i s = .next t ∧ { t with runFault := s.runFault } = s.answered { status := st } :=
  ⟨_, h, refusedWith_eq s st⟩

/-- A must-be-zero field that is not 0, for an operation that reads `a` only (R68). -/
theorem not_restZero {o : Fields} (h : o.b ≠ 0 ∨ o.c ≠ 0 ∨ o.sh ≠ 0) : ¬ (o.b = 0 ∧ o.c = 0 ∧ o.sh = 0) := by
  rwa [not_and_or, not_and_or]

end Sys2Proof.Machine

open Sys2Proof Sys2Proof.Machine

namespace Sys2Proof.Proofs

/-- Settles O3: the decoder reads each code of the map and refuses every other one, and the upper nibble of the encoded code is the
family. -/
theorem opcodeAloneSelects : Obligations.OpcodeAloneSelects := by
  refine ⟨fun w => ?_, fun i => ?_⟩
  · refine ⟨decodeWord_of_op, decodeWord_of_op, decodeWord_of_op, decodeWord_of_op, decodeWord_of_op, decodeWord_of_op,
      decodeWord_of_op, decodeWord_of_op, decodeWord_of_op, decodeWord_of_op, fun h => ?_⟩
    rw [decodeWord_of_op rfl, decodeOp_reserved _ h]
  · rw [encodeWord_upperNibble]
    cases i <;> rfl

/-- Settles O5: the layout field by field, and every operation's answer (`exec_eq`) has a status and a class of the two maps, a
class only where the decomposer accepted. -/
theorem responseWordLayout : Obligations.ResponseWordLayout := by
  refine ⟨fun r => ⟨word_reservedTop r, ?_, word_reservedMiddle r, word_acceptBounds r, word_mmShift r, ?_, word_sign r,
    word_e r, word_r1 r, word_r0 r⟩, fun i s => ?_⟩
  · rw [word_status]
    cases r.status <;> rfl
  · rw [word_cls]
    rcases r.cls with _ | c
    · rfl
    · cases c <;> rfl
  · have hresponse : (conclude s (reply i)).response s.sel = some (reply i) := response_conclude s (reply i)
    refine ⟨conclude s (reply i), reply i, exec_eq i s, hresponse, by rw [State.responseWord, hresponse]; rfl, ?_, ?_, ?_⟩
    · rw [word_status]
      exact Status.code_le _
    · rw [word_cls]
      exact clsCode_le _
    · rw [word_cls]
      exact fun h => reply_cls_ne_none (mt (clsCode_eq_zero_iff _).mpr h)

/-- Settles O10: a transaction changes nothing but the selection, its response and the record, and the answer to a reserved code is
`BAD_OP`. -/
theorem reservedOpcodesRefused : Obligations.ReservedOpcodesRefused := by
  refine ⟨fun s p w hready hop => ?_, reservedCodes_length⟩
  exact ⟨_, step_present hready, replyWord_reserved hop ▸ conclude_present w hready _⟩

/-- Settles O11: each operation's refusal, and a word is the encoding of the operation it decodes to. -/
theorem mustBeZeroFieldsRefused : Obligations.MustBeZeroFieldsRefused := by
  refine ⟨fun i s h => ?_, fun v w i hv hw => (encodeWord_of_decodeWord hv).symm.trans (encodeWord_of_decodeWord hw)⟩
  apply answered_of_exec_refused
  cases i with
  | dec32 o => exact exec_dec32_refused s (not_and_or.mpr (h.imp_right not_restZero))
  | dec64 o => exact exec_dec64_refused s (not_restZero h)
  | mul64 o => exact exec_mul64_refused s (not_and_or.mpr h)
  | mulhi64 o => exact exec_mulhi64_refused s (not_and_or.mpr h)
  | mulshift64 o => exact h.elim
  | pow5bits o => exact exec_pow5bits_refused s fun hok => not_restZero h hok.2
  | log10pow2 o => exact exec_log10pow2_refused s fun hok => not_restZero h hok.2
  | log10pow5 o => exact exec_log10pow5_refused s fun hok => not_restZero h hok.2
  | pow5 o => exact exec_pow5_refused s (not_restZero h)
  | pow5inv o => exact exec_pow5inv_refused s (not_restZero h)

/-- Settles O7: the two words of `T` are the halves of the table entry. -/
theorem pseudoOperationsExpand : Obligations.PseudoOperationsExpand := by
  refine ⟨fun m t0 t1 sh => ?_, fun bits => rfl, fun bits => rfl⟩
  rw [Line.instr, BitVec.extractLsb'_append_eq_left, BitVec.extractLsb'_append_eq_right]

end Sys2Proof.Proofs
end

section
/-! PROOFS. The decomposer (40_decomposer.md): the class of a pattern, the response as the rules compute it, the sign, the sentinel
exponent, and the two neighbours of a float. -/

namespace Sys2Proof.Machine

/-! ### The class by the two fields (R93) -/

theorem efMax_ne_zero (f : Format) : efMax f ≠ 0 := by
  cases f <;> decide

/-- The five rows of R93, which exclude each other: the class and what it says of the two fields. -/
theorem classify_cases (f : Format) (ef mf : Nat) :
    (classify f ef mf = .zero ∧ ef = 0 ∧ mf = 0) ∨
    (classify f ef mf = .subnormal ∧ ef = 0 ∧ mf ≠ 0) ∨
    (classify f ef mf = .normal ∧ ef ≠ 0 ∧ ef ≠ efMax f) ∨
    (classify f ef mf = .inf ∧ ef = efMax f ∧ mf = 0) ∨
    (classify f ef mf = .nan ∧ ef = efMax f ∧ mf ≠ 0) := by
  unfold classify
  split_ifs with hzero hinf hnan hsub
  · exact .inl ⟨rfl, hzero⟩
  · exact .inr (.inr (.inr (.inl ⟨rfl, hinf⟩)))
  · exact .inr (.inr (.inr (.inr ⟨rfl, hnan, fun hm => hinf ⟨hnan, hm⟩⟩)))
  · exact .inr (.inl ⟨rfl, hsub, fun hm => hzero ⟨hsub, hm⟩⟩)
  · exact .inr (.inr (.inl ⟨rfl, hsub, hnan⟩))

/-- The code of the class (R93). -/
theorem clsCode_decompose (f : Format) (bits : Nat) : clsCode (decompose f bits).cls =
    if efOf f bits = 0 ∧ mfOf f bits = 0 then 1 else if efOf f bits = efMax f ∧ mfOf f bits = 0 then 4
    else if efOf f bits = efMax f ∧ mfOf f bits ≠ 0 then 5 else if efOf f bits = 0 ∧ mfOf f bits ≠ 0 then 2 else 3 := by
  have hmax := efMax_ne_zero f
  change clsCode (some (classify f (efOf f bits) (mfOf f bits))) = _
  obtain ⟨hc, he, hm⟩ | ⟨hc, he, hm⟩ | ⟨hc, he, hm⟩ | ⟨hc, he, hm⟩ | ⟨hc, he, hm⟩ :=
    classify_cases f (efOf f bits) (mfOf f bits) <;> rw [hc] <;> simp [he, hm, hmax, hmax.symm, clsCode]

/-! ### The response as R100 and R101 compute it -/

/-- The pseudocode of R100 and R101 with the constants of R91, the fields written as quotients and remainders of the pattern. -/
def ruleResponse (f : Format) (bits : Nat) : Response :=
  let ef := bits / 2 ^ mantissaWidth f % 2 ^ exponentWidth f
  let mf := bits % 2 ^ mantissaWidth f
  let out (c : Cls) (m2 : Nat) (e2 : Int) : Response :=
    { status := .ok, r0 := BitVec.ofNat 64 m2, r1 := 0, e := BitVec.ofInt 32 e2,
      sign := decide (bits / 2 ^ (totalWidth f - 1) = 1), cls := some c, mmShift := decide (¬ (mf = 0 ∧ 1 < ef)),
      acceptBounds := decide (m2 % 2 = 0) }
  if ef = 0 ∧ mf = 0 then out .zero 0 0
  else if ef = efMax f ∧ mf = 0 then out .inf 0 specialExp
  else if ef = efMax f then out .nan mf specialExp
  else if ef = 0 then out .subnormal mf (e2Sub f)
  else out .normal (2 ^ mantissaWidth f + mf) (ef - e2Off f)

theorem mfOf_eq_mod (f : Format) (bits : Nat) : mfOf f bits = bits % 2 ^ mantissaWidth f := by
  rw [mfOf, slice, Nat.pow_zero, Nat.div_one]

/-- In a pattern of the format's width the quotient by the weight of the top bit is that bit. -/
theorem signOf_eq_decide {f : Format} {bits : Nat} (h : bits < 2 ^ totalWidth f) :
    signOf f bits = decide (bits / 2 ^ (totalWidth f - 1) = 1) := by
  have hbit : bits / 2 ^ (totalWidth f - 1) < 2 ^ 1 := by
    rw [Nat.div_lt_iff_lt_mul (by positivity)]
    cases f <;> exact h
  rw [signOf, slice, Nat.mod_eq_of_lt hbit]
  rfl

theorem mmShiftOf_eq_decide (ef mf : Nat) : mmShiftOf ef mf = decide (¬ (mf = 0 ∧ 1 < ef)) := by
  rw [mmShiftOf, decide_not, Bool.decide_and]
  rfl

theorem acceptBoundsOf_eq_decide (m2 : Nat) : acceptBoundsOf m2 = decide (m2 % 2 = 0) := rfl

/-- The decomposer computes what the rules say, on every pattern of the format's width. -/
theorem decompose_eq_ruleResponse {f : Format} {bits : Nat} (h : bits < 2 ^ totalWidth f) :
    decompose f bits = ruleResponse f bits := by
  have hmax := efMax_ne_zero f
  have hef : efOf f bits = bits / 2 ^ mantissaWidth f % 2 ^ exponentWidth f := rfl
  simp only [decompose, ruleResponse, signOf_eq_decide h, mmShiftOf_eq_decide, ← mfOf_eq_mod, ← hef]
  obtain ⟨hc, he, hm⟩ | ⟨hc, he, hm⟩ | ⟨hc, he, hm⟩ | ⟨hc, he, hm⟩ | ⟨hc, he, hm⟩ :=
    classify_cases f (efOf f bits) (mfOf f bits) <;> rw [hc] <;>
    simp [he, hm, hmax, hmax.symm, significand, exponent, toI32, acceptBoundsOf_eq_decide]

/-! ### The sign takes no part (R93) -/

/-- Patterns with the same exponent and mantissa field have the same response, but for the sign. -/
theorem decompose_of_fields {f : Format} {a b : Nat} (he : efOf f a = efOf f b) (hm : mfOf f a = mfOf f b) :
    decompose f a = { decompose f b with sign := signOf f a } := by
  simp only [decompose, he, hm]

theorem decompose_flip32 (bits : BitVec 32) : decompose .binary32 (bits ^^^ 0x80000000#32).toNat =
    { decompose .binary32 bits.toNat with sign := !(decompose .binary32 bits.toNat).sign } := by
  have he : efOf .binary32 (bits ^^^ 0x80000000#32).toNat = efOf .binary32 bits.toNat := by
    rw [efOf_binary32, efOf_binary32, BitVec.extractLsb'_xor]
    simp
  have hm : mfOf .binary32 (bits ^^^ 0x80000000#32).toNat = mfOf .binary32 bits.toNat := by
    rw [mfOf_binary32, mfOf_binary32, BitVec.extractLsb'_xor]
    simp
  have hs : signOf .binary32 (bits ^^^ 0x80000000#32).toNat = !signOf .binary32 bits.toNat := by
    rw [signOf_binary32, signOf_binary32, BitVec.getLsbD_xor]
    simp
  rw [decompose_of_fields he hm, hs]
  rfl

theorem decompose_flip64 (bits : U64) : decompose .binary64 (bits ^^^ 0x8000000000000000#64).toNat =
    { decompose .binary64 bits.toNat with sign := !(decompose .binary64 bits.toNat).sign } := by
  have he : efOf .binary64 (bits ^^^ 0x8000000000000000#64).toNat = efOf .binary64 bits.toNat := by
    rw [efOf_binary64, efOf_binary64, BitVec.extractLsb'_xor]
    simp
  have hm : mfOf .binary64 (bits ^^^ 0x8000000000000000#64).toNat = mfOf .binary64 bits.toNat := by
    rw [mfOf_binary64, mfOf_binary64, BitVec.extractLsb'_xor]
    simp
  have hs : signOf .binary64 (bits ^^^ 0x8000000000000000#64).toNat = !signOf .binary64 bits.toNat := by
    rw [signOf_binary64, signOf_binary64, BitVec.getLsbD_xor]
    simp
  rw [decompose_of_fields he hm, hs]
  rfl

/-! ### Infinity and NaN (R95) -/

/-- A response the decomposer marks as infinity or NaN. -/
def Response.Special (r : Response) : Prop := r.cls = some .inf ∨ r.cls = some .nan

section sentinel
variable (f : Format) (bits : Nat)

/-- The response's `e` holds `e2`, and its `r0` holds `m2` (R100, R101). -/
theorem decompose_e_toInt :
    (decompose f bits).e.toInt = exponent f (classify f (efOf f bits) (mfOf f bits)) (efOf f bits) :=
  exponent_toInt (efOf_lt f bits)

theorem decompose_r0 : (decompose f bits).r0 =
    BitVec.ofNat 64 (significand f (classify f (efOf f bits) (mfOf f bits)) (mfOf f bits)) := rfl

theorem decompose_r0_toNat :
    (decompose f bits).r0.toNat = significand f (classify f (efOf f bits) (mfOf f bits)) (mfOf f bits) :=
  significand_toNat (mfOf_lt f bits)

theorem decompose_cls : (decompose f bits).cls = some (classify f (efOf f bits) (mfOf f bits)) := rfl

/-- Infinity and NaN carry the sentinel, and every other `e2` is in a range without it (R95, R102). -/
theorem special_or_finite :
    ((decompose f bits).Special ∧ (decompose f bits).e.toInt = 0x7FFFFFFF) ∨
    (¬ (decompose f bits).Special ∧ -1076 ≤ (decompose f bits).e.toInt ∧ (decompose f bits).e.toInt ≤ 969) := by
  have hlt := efOf_lt f bits
  rw [Response.Special, decompose_cls, decompose_e_toInt]
  obtain ⟨hc, he, hm⟩ | ⟨hc, he, hm⟩ | ⟨hc, he, hm⟩ | ⟨hc, he, hm⟩ | ⟨hc, he, hm⟩ :=
    classify_cases f (efOf f bits) (mfOf f bits) <;> rw [hc]
  · exact .inr ⟨by simp, by simp [exponent]⟩
  · exact .inr ⟨by simp, by cases f <;> simp [exponent, e2Sub]⟩
  · refine .inr ⟨by simp, ?_⟩
    cases f <;> simp only [exponent, e2Off, efMax] at * <;> omega
  · exact .inl ⟨.inl rfl, rfl⟩
  · exact .inl ⟨.inr rfl, rfl⟩

/-- The sentinel marks infinity and NaN, and no finite number. -/
theorem sentinel_iff : (decompose f bits).e.toInt = 0x7FFFFFFF ↔ (decompose f bits).Special := by
  obtain ⟨hs, he⟩ | ⟨hs, he⟩ := special_or_finite f bits
  · exact iff_of_true he hs
  · exact iff_of_false (by omega) hs

variable {f bits}

theorem finite_exponent_range (h : ¬ (decompose f bits).Special) :
    -1076 ≤ (decompose f bits).e.toInt ∧ (decompose f bits).e.toInt ≤ 969 :=
  ((special_or_finite f bits).resolve_left fun hs => h hs.1).2

theorem decompose_r0_eq_zero_iff : (decompose f bits).r0 = 0 ↔ (decompose f bits).r0.toNat = 0 :=
  BitVec.toNat_inj.symm

/-- For infinity and NaN `m2` is the mantissa field, 0 for the one and not for the other. -/
theorem special_mantissa (h : (decompose f bits).Special) :
    (decompose f bits).r0 = BitVec.ofNat 64 (mfOf f bits) ∧
    ((decompose f bits).r0 = 0 ↔ (decompose f bits).cls = some .inf) ∧
    ((decompose f bits).r0 ≠ 0 ↔ (decompose f bits).cls = some .nan) := by
  rw [Response.Special, decompose_cls] at h
  rw [ne_eq, decompose_r0_eq_zero_iff, decompose_r0_toNat, decompose_cls, decompose_r0]
  obtain ⟨hc, he, hm⟩ | ⟨hc, he, hm⟩ | ⟨hc, he, hm⟩ | ⟨hc, he, hm⟩ | ⟨hc, he, hm⟩ :=
    classify_cases f (efOf f bits) (mfOf f bits) <;> rw [hc] at h ⊢ <;> simp [hm, significand] at h ⊢

end sentinel

/-! ### The neighbours of a float (R97, R99) -/

/-- The weight of the last bit of the significand at an exponent field (R97). -/
def lastBitWeight (f : Format) (ef : Nat) : ℚ := 2 ^ ((max ef 1 : ℤ) - bias f - mantissaWidth f)

section neighbours
variable {f : Format} {bits : Nat}

/-- The exponent field 0 means the same weight as the field 1: subnormals have no binade of their own. -/
theorem lastBitWeight_zero : lastBitWeight f 0 = lastBitWeight f 1 := rfl

/-- The next binade has twice the weight. -/
theorem lastBitWeight_succ {ef : Nat} (h : ef ≠ 0) : lastBitWeight f (ef + 1) = 2 * lastBitWeight f ef := by
  have hexp : (max (ef + 1 : ℕ) 1 : ℤ) - bias f - mantissaWidth f =
      (max ef 1 : ℤ) - bias f - mantissaWidth f + 1 := by omega
  rw [lastBitWeight, hexp, zpow_add_one₀ (by norm_num), mul_comm]
  rfl

/-- The absolute value of a float is its significand times the weight of the last bit. -/
theorem abs_floatValue (f : Format) (bits : Nat) :
    |floatValue f bits| = floatSignificand f bits * lastBitWeight f (efOf f bits) := by
  have hsign : |(if signOf f bits then -1 else 1 : ℚ)| = 1 := by split <;> simp
  have hpow : (0 : ℚ) < lastBitWeight f (efOf f bits) := by unfold lastBitWeight; positivity
  rw [floatValue, abs_mul, abs_mul, hsign, one_mul, Nat.abs_cast]
  exact congrArg _ (abs_of_pos hpow)

theorem floatSignificand_subnormal (h : efOf f bits = 0) : floatSignificand f bits = mfOf f bits := if_pos h

theorem floatSignificand_normal (h : efOf f bits ≠ 0) : floatSignificand f bits = 2 ^ mantissaWidth f + mfOf f bits :=
  if_neg h

/-- A float that is not 0 has a field that is not 0. -/
theorem fields_ne_zero (h : floatValue f bits ≠ 0) : mfOf f bits ≠ 0 ∨ efOf f bits ≠ 0 := by
  by_contra hz
  obtain ⟨hm, he⟩ := not_or.mp hz
  rw [not_not] at hm he
  have habs := abs_floatValue f bits
  rw [floatSignificand_subnormal he, hm, Nat.cast_zero, zero_mul, abs_eq_zero] at habs
  exact h habs

/-- The float above is one step of the last bit away, over the end of a binade as well. -/
theorem abs_floatValue_succ (hfin : IsFinite f bits) :
    |floatValue f (bits + 1)| = (floatSignificand f bits + 1) * lastBitWeight f (efOf f bits) := by
  rw [abs_floatValue]
  obtain ⟨-, he, hm⟩ | ⟨hlast, he, hm⟩ := fields_succ hfin
  · have hsig : floatSignificand f (bits + 1) = floatSignificand f bits + 1 := by
      simp only [floatSignificand, he, hm]
      split <;> omega
    rw [hsig, he, Nat.cast_succ]
  · have hsig : floatSignificand f (bits + 1) = 2 ^ mantissaWidth f := by
      rw [floatSignificand_normal (by omega), hm, Nat.add_zero]
    rw [hsig, he]
    by_cases hsub : efOf f bits = 0
    · rw [hsub, lastBitWeight_zero, floatSignificand_subnormal hsub, ← hlast, Nat.cast_succ]
    · have hdouble : floatSignificand f bits + 1 = 2 * 2 ^ mantissaWidth f := by
        rw [floatSignificand_normal hsub]; omega
      rw [lastBitWeight_succ hsub, ← Nat.cast_succ, Nat.succ_eq_add_one, hdouble]
      push_cast
      ring

/-- `mm_shift` by the two fields (R99). -/
theorem decompose_mmShift (f : Format) (bits : Nat) :
    (decompose f bits).mmShift = decide (¬ (mfOf f bits = 0 ∧ 1 < efOf f bits)) :=
  mmShiftOf_eq_decide (efOf f bits) (mfOf f bits)

theorem mmShift_toNat (f : Format) (bits : Nat) :
    (decompose f bits).mmShift.toNat = if mfOf f bits = 0 ∧ 1 < efOf f bits then 0 else 1 := by
  rw [decompose_mmShift]
  split <;> simp [*]

theorem mmShift_eq_false_iff : (decompose f bits).mmShift = false ↔ mfOf f bits = 0 ∧ 1 < efOf f bits := by
  rw [decompose_mmShift, decide_eq_false_iff_not, not_not]

/-- The float below is one step of the last bit away, or half a step where `mm_shift` is 0. -/
theorem abs_floatValue_pred (h : floatValue f bits ≠ 0) :
    |floatValue f (bits - 1)| =
      (floatSignificand f bits - (1 + (decompose f bits).mmShift.toNat) / 2) * lastBitWeight f (efOf f bits) := by
  rw [abs_floatValue, mmShift_toNat]
  obtain ⟨hne, he, hm⟩ | ⟨hz, he, hm⟩ := fields_pred (fields_ne_zero h)
  · have hsig : floatSignificand f bits = floatSignificand f (bits - 1) + 1 := by
      simp only [floatSignificand, he, hm]
      split <;> omega
    rw [if_neg fun hp => hne hp.1, hsig, he]
    push_cast
    ring
  · have hpos : 0 < 2 ^ mantissaWidth f := by positivity
    have hef : efOf f bits ≠ 0 := (fields_ne_zero h).resolve_left fun hm => hm hz
    by_cases hone : efOf f bits = 1
    · -- the smallest normal: the largest subnormal is a whole step below
      have hsig : floatSignificand f bits = floatSignificand f (bits - 1) + 1 := by
        rw [floatSignificand_normal hef, floatSignificand_subnormal (by omega), hm, hz]; omega
      rw [if_neg (by omega), hsig, he, hone, lastBitWeight_zero]
      push_cast
      ring
    · -- a power of two: the float below is in the binade below
      have hsig : 2 * floatSignificand f bits = floatSignificand f (bits - 1) + 1 := by
        rw [floatSignificand_normal hef, floatSignificand_normal (by omega), hm, hz]; omega
      have hweight : lastBitWeight f (efOf f bits) = 2 * lastBitWeight f (efOf f (bits - 1)) := by
        rw [he, ← lastBitWeight_succ (by omega), Nat.sub_add_cancel (by omega)]
      have hsigQ : 2 * (floatSignificand f bits : ℚ) = floatSignificand f (bits - 1) + 1 := by exact_mod_cast hsig
      rw [if_pos ⟨hz, by omega⟩, hweight]
      linear_combination (-(lastBitWeight f (efOf f (bits - 1)))) * hsigQ

/-- For a finite float that is not 0 the response holds the significand, and `4 * 2^e2` is the weight of its last bit (R96, R97). -/
theorem decompose_finite (hfin : IsFinite f bits) (hne : floatValue f bits ≠ 0) :
    (decompose f bits).r0.toNat = floatSignificand f bits ∧
    lastBitWeight f (efOf f bits) = 4 * (2 : ℚ) ^ (decompose f bits).e.toInt := by
  have hexp : ∀ e : ℤ, (max (efOf f bits) 1 : ℤ) - bias f - mantissaWidth f = e + 2 →
      lastBitWeight f (efOf f bits) = 4 * (2 : ℚ) ^ e := fun e he => by
    rw [lastBitWeight, he, zpow_add₀ (by norm_num)]
    norm_num [mul_comm]
  rw [decompose_r0_toNat, decompose_e_toInt]
  obtain ⟨-, he, hm⟩ | ⟨hc, he, hm⟩ | ⟨hc, he, hm⟩ | ⟨-, he, -⟩ | ⟨-, he, -⟩ :=
    classify_cases f (efOf f bits) (mfOf f bits)
  · exact absurd (fields_ne_zero hne) (by omega)
  · rw [hc, floatSignificand_subnormal he]
    refine ⟨rfl, hexp _ ?_⟩
    rw [he]
    cases f <;> rfl
  · rw [hc, floatSignificand_normal he]
    refine ⟨rfl, hexp _ ?_⟩
    have hmax : (max (efOf f bits) 1 : ℤ) = efOf f bits := by omega
    rw [hmax]
    cases f <;> simp only [exponent, bias, mantissaWidth, e2Off] <;> omega
  · exact absurd he hfin
  · exact absurd he hfin

/-- The Selector's lower bound is the midpoint to the float below (R99). -/
theorem lower_midpoint (hfin : IsFinite f bits) (hne : floatValue f bits ≠ 0) :
    |floatValue f (bits - 1)| + |floatValue f bits| =
      2 * ((4 * ((decompose f bits).r0.toNat : ℚ) - 1 - ((decompose f bits).mmShift.toNat : ℚ)) *
        (2 : ℚ) ^ (decompose f bits).e.toInt) := by
  obtain ⟨hr, hw⟩ := decompose_finite hfin hne
  rw [abs_floatValue_pred hne, abs_floatValue, hr, hw]
  ring

/-- The Selector's upper bound is the midpoint to the float above (R99). -/
theorem upper_midpoint (hfin : IsFinite f bits) (hne : floatValue f bits ≠ 0) :
    |floatValue f bits| + |floatValue f (bits + 1)| =
      2 * ((4 * ((decompose f bits).r0.toNat : ℚ) + 2) * (2 : ℚ) ^ (decompose f bits).e.toInt) := by
  obtain ⟨hr, hw⟩ := decompose_finite hfin hne
  rw [abs_floatValue_succ hfin, abs_floatValue, hr, hw]
  ring

end neighbours

end Sys2Proof.Machine

open Sys2Proof Sys2Proof.Machine

namespace Sys2Proof.Proofs

/-- Settles O15: an accepted command gets the response of the rule's pseudocode, every other one is refused. -/
theorem dec32Result : Obligations.Dec32Result := by
  intro o s bits ef mf out
  refine ⟨fun ⟨hu, h⟩ => ?_, fun h => answered_of_exec_refused (exec_dec32_refused s h), packCommand_op _ _⟩
  rw [exec_dec32 s hu h, decompose_eq_ruleResponse ((upper_zero_iff _).mp hu)]
  rfl

/-- Settles O16: an accepted command gets the response of the rule's pseudocode, every other one is refused. -/
theorem dec64Result : Obligations.Dec64Result := by
  intro o s bits ef mf out
  refine ⟨fun h => ?_, fun h => answered_of_exec_refused (exec_dec64_refused s h), packCommand_op _ _⟩
  rw [exec_dec64 s h, decompose_eq_ruleResponse o.a.isLt]
  rfl

/-- Settles O17: the class and its code by the two fields, which the sign bit is not in. -/
theorem classificationIgnoresSign : Obligations.ClassificationIgnoresSign := by
  refine ⟨fun bits s => ⟨_, exec_dec32_pattern s bits, ?_, ?_⟩, fun bits s => ⟨_, exec_dec64_pattern s bits, ?_, ?_⟩⟩
  · simp only [clsCode_decompose, efOf_binary32, mfOf_binary32, ← BitVec.toNat_inj, ne_eq]
    rfl
  · rw [exec_dec32_pattern, decompose_flip32]
  · simp only [clsCode_decompose, efOf_binary64, mfOf_binary64, ← BitVec.toNat_inj, ne_eq]
    rfl
  · rw [exec_dec64_pattern, decompose_flip64]

/-- Settles O18: the sentinel, the mantissa field and the finite range, by class. -/
theorem sentinelMarksInfinityAndNan : Obligations.SentinelMarksInfinityAndNan := by
  refine ⟨fun bits s => ⟨_, exec_dec32_pattern s bits, sentinel_iff _ _, fun h => ?_,
      fun hinf hnan => finite_exponent_range (not_or.mpr ⟨hinf, hnan⟩)⟩,
    fun bits s => ⟨_, exec_dec64_pattern s bits, sentinel_iff _ _, fun h => ?_,
      fun hinf hnan => finite_exponent_range (not_or.mpr ⟨hinf, hnan⟩)⟩⟩
  · obtain ⟨hr, hinf, hnan⟩ := special_mantissa h
    exact ⟨by rw [hr, mfOf_binary32, BitVec.ofNat_toNat], hinf, hnan, signOf_binary32 bits⟩
  · obtain ⟨hr, hinf, hnan⟩ := special_mantissa h
    exact ⟨by rw [hr, mfOf_binary64, BitVec.ofNat_toNat], hinf, hnan, signOf_binary64 bits⟩

/-- Settles O20: the flag by the two fields, and the midpoints from the distance to each neighbour. -/
theorem mmShiftGivesTheMidpoints : Obligations.MmShiftGivesTheMidpoints := by
  refine ⟨fun bits s => ⟨_, exec_dec32_pattern s bits, ?_, fun hfin hne => ⟨?_, fun _ => ?_⟩⟩,
    fun bits s => ⟨_, exec_dec64_pattern s bits, ?_, fun hfin hne => ⟨?_, fun _ => ?_⟩⟩⟩
  · rw [mmShift_eq_false_iff, efOf_binary32, mfOf_binary32, ← BitVec.toNat_inj]
    rfl
  · exact lower_midpoint hfin hne
  · exact upper_midpoint hfin hne
  · rw [mmShift_eq_false_iff, efOf_binary64, mfOf_binary64, ← BitVec.toNat_inj]
    rfl
  · exact lower_midpoint hfin hne
  · exact upper_midpoint hfin hne

end Sys2Proof.Proofs
end

section
/-! PROOFS. The multiplier (41_multiply_shift.md): the halves of a product, and the width of the `MULSHIFT64` quotient. -/

namespace Sys2Proof.Machine

/-! ### The halves of a product (R121, R122) -/

/-- Multiplication commutes, and no check of `MUL64` reads `a` or `b` (R121). -/
theorem reply_mul64_swap (o : Fields) : reply (.mul64 { o with a := o.b, b := o.a }) = reply (.mul64 o) := by
  simp only [reply, Nat.mul_comm o.b.toNat]
  rfl

/-- The high half of a product of two words is at most `2^64 - 2` (R122). -/
theorem mul_word_high_le {a b : Nat} (ha : a < 2 ^ 64) (hb : b < 2 ^ 64) : a * b / 2 ^ 64 ≤ 2 ^ 64 - 2 := by
  have := mul_word_le ha hb
  omega

/-! ### The quotient of `MULSHIFT64` (R124, R127) -/

/-- `RSP.r0` alone is the number exactly if `RSP.r1` is 0. -/
theorem highWord_eq_zero_iff {v : Nat} (h : v < 2 ^ 128) : highWord v = 0 ↔ (lowWord v).toNat = v := by
  have hwords := words_of_lt h
  rw [← BitVec.toNat_inj]
  change (highWord v).toNat = 0 ↔ _
  omega

/-- A number below `2^64` stands in `RSP.r0` alone. -/
theorem words_of_lt_word {v : Nat} (h : v < 2 ^ 64) : highWord v = 0 ∧ (lowWord v).toNat = v := by
  have hlow := (lowWord_toNat v).trans (Nat.mod_eq_of_lt h)
  exact ⟨(highWord_eq_zero_iff (by omega)).mpr hlow, hlow⟩

/-- The quotient is as many bits narrower than the product as the shift says. -/
theorem mulShift_lt_of_mul_lt {m lo hi shift n : Nat} (hlow : 64 ≤ shift) (hshift : shift ≤ n)
    (h : m * (hi * 2 ^ 64 + lo) < 2 ^ n) : mulShift m lo hi shift < 2 ^ (n - shift) := by
  rw [mulShift_eq hlow]
  apply Nat.div_lt_of_lt_mul
  rwa [← Nat.pow_add, Nat.add_sub_cancel' hshift]

/-- A word times a 128-bit number is below `2^192`. -/
theorem mul_joined_lt {m lo hi : Nat} (hm : m < 2 ^ 64) (hlo : lo < 2 ^ 64) (hhi : hi < 2 ^ 64) :
    m * (hi * 2 ^ 64 + lo) < 2 ^ 192 :=
  calc m * (hi * 2 ^ 64 + lo) < 2 ^ 64 * 2 ^ 128 := Nat.mul_lt_mul'' hm (by omega)
    _ = 2 ^ 192 := by norm_num

/-- For the operands the engine uses the quotient is below `2^63` (R127). -/
theorem mulShift_lt_of_engine {m lo hi shift : Nat} (hm : m ≤ 2 ^ 55 - 2) (hmul : hi * 2 ^ 64 + lo < 2 ^ 126)
    (h118 : 118 ≤ shift) (h127 : shift ≤ 127) : mulShift m lo hi shift < 2 ^ 63 := by
  have hprod : m * (hi * 2 ^ 64 + lo) < 2 ^ 181 :=
    calc m * (hi * 2 ^ 64 + lo) < 2 ^ 55 * 2 ^ 126 := Nat.mul_lt_mul'' (by omega) hmul
      _ = 2 ^ 181 := by norm_num
  calc mulShift m lo hi shift < 2 ^ (181 - shift) := mulShift_lt_of_mul_lt (by omega) (by omega) hprod
    _ ≤ 2 ^ 63 := Nat.pow_le_pow_right (by norm_num) (by omega)

end Sys2Proof.Machine

open Sys2Proof Sys2Proof.Machine

namespace Sys2Proof.Proofs

/-- Settles O22: the two words are the halves of the product, which commutes, and the must-be-zero fields are the one check. -/
theorem mul64Result : Obligations.Mul64Result := by
  intro o s
  have hlt := mul_word_lt o.a.isLt o.b.isLt
  refine ⟨fun h => ⟨_, _, exec_mul64 s h, lowWord_toNat _, highWord_toNat hlt, words_of_lt hlt⟩, ?_,
    fun h => answered_of_exec_refused (exec_mul64_refused s h), packCommand_op _ _⟩
  rw [exec_eq, exec_eq, reply_mul64_swap]

/-- Settles O23: the answer is the high half, bounded by the largest product. -/
theorem mulhi64Result : Obligations.Mulhi64Result := by
  intro o s
  have hhigh := highWord_toNat (mul_word_lt o.a.isLt o.b.isLt)
  exact ⟨fun h => ⟨_, exec_mulhi64 s h, hhigh, hhigh.trans_le (mul_word_high_le o.a.isLt o.b.isLt)⟩,
    fun h => answered_of_exec_refused (exec_mulhi64_refused s h), packCommand_op _ _⟩

/-- Settles O24: the two words hold the whole quotient, which is the exact floor, and the shift is the one check. -/
theorem mulshift64Result : Obligations.Mulshift64Result := by
  intro o s
  have hwords := words_of_lt (mulShift_lt (shift := o.sh.toNat) o.a.isLt o.b.isLt o.c.isLt)
  exact ⟨fun h => ⟨_, _, exec_mulshift64 s h, hwords, hwords.trans (mulShift_eq (by omega))⟩,
    fun h => answered_of_exec_refused (exec_mulshift64_refused s (by omega)), packCommand_op _ _⟩

/-- Settles O25: the width of the quotient from the width of the product, for all operands and for those of the engine. -/
theorem mulshiftResultWidth : Obligations.MulshiftResultWidth := by
  intro o s hlow hhigh
  have hlt := mulShift_lt (shift := o.sh.toNat) o.a.isLt o.b.isLt o.c.isLt
  refine ⟨_, _, exec_mulshift64 s ⟨hlow, hhigh⟩, ?_, ?_, fun hm hmul h118 => ?_⟩
  · rw [words_of_lt hlt]
    exact mulShift_lt_of_mul_lt (by omega) (by omega) (mul_joined_lt o.a.isLt o.b.isLt o.c.isLt)
  · rw [← mulShift_eq (by omega)]
    exact highWord_eq_zero_iff hlt
  · have hsmall := mulShift_lt_of_engine hm hmul h118 hhigh
    obtain ⟨hr1, hr0⟩ := words_of_lt_word (hsmall.trans (by norm_num))
    exact ⟨hr1, hr0.trans_lt hsmall⟩

end Sys2Proof.Proofs
end

section
/-! PROOFS. The logarithm helpers and the table loads (42_pow5_table.md): the helpers' values fit `RSP.r0`, the entries by the bit length
of `5^i`, and the layout commutes with every operation and every step. -/

namespace Sys2Proof.Machine

/-! ### The logarithm helpers (R151, R154, R157) -/

/-- A fixed-point product with a constant below `2^48` leaves room for the `+ 1` of R151 in a word (R160). -/
theorem fixedPoint_succ_lt {e M : Nat} (he : e ≤ 65535) (hM : M < 2 ^ 48) (k : Nat) : e * M / 2 ^ k + 1 < 2 ^ 64 := by
  have hprod : e * M ≤ 65535 * (2 ^ 48 - 1) := Nat.mul_le_mul he (by omega)
  have hquot : e * M / 2 ^ k ≤ e * M := Nat.div_le_self _ _
  omega

variable {e : Nat}

theorem pow5Bits_toNat (he : e ≤ 65535) : (BitVec.ofNat 64 (pow5Bits e)).toNat = pow5Bits e :=
  (BitVec.toNat_ofNat ..).trans (Nat.mod_eq_of_lt (fixedPoint_succ_lt he (by norm_num) 46))

theorem log10Pow2_toNat (he : e ≤ 65535) : (BitVec.ofNat 64 (log10Pow2 e)).toNat = log10Pow2 e :=
  (BitVec.toNat_ofNat ..).trans (Nat.mod_eq_of_lt (Nat.lt_of_succ_lt (fixedPoint_succ_lt he (by norm_num) 49)))

theorem log10Pow5_toNat (he : e ≤ 65535) : (BitVec.ofNat 64 (log10Pow5 e)).toNat = log10Pow5 e :=
  (BitVec.toNat_ofNat ..).trans (Nat.mod_eq_of_lt (Nat.lt_of_succ_lt (fixedPoint_succ_lt he (by norm_num) 48)))

/-! ### The table entries (R161, R162) -/

/-- `P5(i)` by the integer logarithm: its bit length is `Nat.log 2 (5^i) + 1`. -/
theorem pow5Entry_eq_log (i : Nat) : pow5Entry i =
    if Nat.log 2 (5 ^ i) + 1 ≤ 125 then 5 ^ i * 2 ^ (125 - (Nat.log 2 (5 ^ i) + 1))
    else 5 ^ i / 2 ^ (Nat.log 2 (5 ^ i) + 1 - 125) := by
  rw [pow5Entry, bitlen_pow, p5BitCount]

/-- `P5I(i)` by the integer logarithm. -/
theorem pow5InvEntry_eq_log (i : Nat) : pow5InvEntry i = 2 ^ (Nat.log 2 (5 ^ i) + 1 - 1 + 125) / 5 ^ i + 1 := by
  rw [pow5InvEntry, bitlen_pow, p5BitCount]

/-! ### The layout (R170) -/

variable {s t : State}

/-- The end of a transaction neither reads nor changes the layout. -/
theorem conclude_withLayout (s : State) (r : Response) (l : Layout) :
    conclude { s with layout := l } r = { conclude s r with layout := l } := rfl

/-- An operation's answer is a function of the command alone (`exec_eq`), so only the layout itself differs. -/
theorem exec_withLayout {i : Instr} (h : exec i s = .next t) (l : Layout) :
    exec i { s with layout := l } = .next { t with layout := l } := by
  rw [exec_eq, Host.Outcome.next.injEq] at h
  rw [exec_eq, conclude_withLayout, h]

/-- A step under reset abandons every transaction (70_reset_and_hazards.md R282). -/
theorem step_reset (h : s.rst = true) : step s = .next s.abandonAll := if_pos h

/-- What a step does is decided by the inputs and the selected port's command, so only the layout itself differs. -/
theorem step_withLayout (h : step s = .next t) (l : Layout) :
    step { s with layout := l } = .next { t with layout := l } := by
  obtain ⟨hrst, rfl⟩ | ⟨hrst, hport, hidle, rfl⟩ | ⟨hrst, w, hcmd, rfl⟩ := step_cases h
  · exact step_reset hrst
  · exact step_idle (s := { s with layout := l }) hrst hport hidle
  · exact step_command (s := { s with layout := l }) hrst hcmd

end Sys2Proof.Machine

open Sys2Proof Sys2Proof.Machine

namespace Sys2Proof.Proofs

/-- Settles O35: both layouts hold the defined entries, and the layout commutes with every operation and every step. -/
theorem layoutIsInvisible : Obligations.LayoutIsInvisible :=
  ⟨memRead_layout .direct .compressed, fun _ _ _ l h => exec_withLayout h l, fun _ _ l h => step_withLayout h l⟩

/-- Settles O28: the value fits `r0`, and the constant's fraction is exact on the domain. -/
theorem pow5bitsResult : Obligations.Pow5bitsResult := by
  intro o s
  refine ⟨fun h => ⟨_, exec_pow5bits s h, ?_, ?_⟩, fun h => answered_of_exec_refused (exec_pow5bits_refused s h),
    packCommand_op _ _⟩
  · exact pow5Bits_toNat h.1
  · rw [pow5Bits_toNat h.1, pow5Bits_eq h.1]

/-- Settles O29: the value fits `r0`, and the two checks are the only ones. -/
theorem log10pow2Result : Obligations.Log10pow2Result := by
  intro o s
  exact ⟨fun h => ⟨_, exec_log10pow2 s h, log10Pow2_toNat h.1⟩,
    fun h => answered_of_exec_refused (exec_log10pow2_refused s h), packCommand_op _ _⟩

/-- Settles O30: the value fits `r0`, and the two checks are the only ones. -/
theorem log10pow5Result : Obligations.Log10pow5Result := by
  intro o s
  exact ⟨fun h => ⟨_, exec_log10pow5 s h, log10Pow5_toNat h.1⟩,
    fun h => answered_of_exec_refused (exec_log10pow5_refused s h), packCommand_op _ _⟩

/-- Settles O33: the loaded words are `P5(i)`, and each refusal is the operation's own. -/
theorem pow5Result : Obligations.Pow5Result := by
  intro o s i pb
  refine ⟨fun h hi => ?_, fun h hi => answered_of_exec_refused (exec_pow5_index s h hi),
    fun h => answered_of_exec_refused (exec_pow5_refused s h), packCommand_op _ _⟩
  obtain ⟨r0, r1, hexec, hwords⟩ := exec_pow5 s h hi
  exact ⟨r0, r1, hexec, hwords.trans (pow5Entry_eq_log _)⟩

/-- Settles O34: the loaded words are `P5I(i)`, and each refusal is the operation's own. -/
theorem pow5invResult : Obligations.Pow5invResult := by
  intro o s i pb
  refine ⟨fun h hi => ?_, fun h hi => answered_of_exec_refused (exec_pow5inv_index s h hi),
    fun h => answered_of_exec_refused (exec_pow5inv_refused s h), packCommand_op _ _⟩
  obtain ⟨r0, r1, hexec, hwords⟩ := exec_pow5inv s h hi
  exact ⟨r0, r1, hexec, hwords.trans (pow5InvEntry_eq_log _)⟩

/-- Settles O36: the compressed layout's arrays hold the defined entries, in either space. -/
theorem compressedEqualsDefinition : Obligations.CompressedEqualsDefinition :=
  ⟨fun _ hi => layoutEntry_eq .compressed .p5 hi, fun _ hi => layoutEntry_eq .compressed .p5inv hi⟩

end Sys2Proof.Proofs
end

section
/-! PROOFS. The exceptions (60_exceptions.md): the status of every command word by the priority of R256, what a refusal leaves behind,
and the independence of the ports. -/

namespace Sys2Proof.Machine

/-! ### The status of every command word (R256) -/

/-- The status by the code and the operand fields, in the order of R256. `status_replyWord` ties it to the block's answer. -/
def statusRule (op : BitVec 8) (o : Fields) : Status :=
  if op ∉ [0x01, 0x02, 0x10, 0x11, 0x12, 0x20, 0x21, 0x22, 0x30, 0x31] then .badOp
  else if (op = 0x01 ∧ 2 ^ 32 ≤ o.a.toNat) ∨ (op ∉ [0x10, 0x11, 0x12] ∧ ¬ o.b = 0) ∨
    (op ≠ 0x12 ∧ (¬ o.c = 0 ∨ o.sh.toNat ≠ 0)) ∨ (op ∈ [0x20, 0x21, 0x22] ∧ 65535 < o.a.toNat) then .badOperand
  else if (op = 0x30 ∧ 325 < o.a.toNat) ∨ (op = 0x31 ∧ 341 < o.a.toNat) then .badIndex
  else if op = 0x12 ∧ ¬ (65 ≤ o.sh.toNat ∧ o.sh.toNat ≤ 127) then .badShift
  else .ok

/-- The status a check leaves: the refusal exactly where its cause applies. -/
theorem status_checked {ok : Bool} {r : Response} {st st' : Status} {cause : Prop} [Decidable cause] (hr : r.status = st')
    (h : ok = false ↔ cause) : (checked ok r st).status = if cause then st else st' := by
  cases ok
  · rw [if_pos (h.mp rfl)]; rfl
  · rw [if_neg (mt h.mpr (by decide)), ← hr]; rfl

/-- An index above the space's range is the one refusal of a load (60_exceptions.md R254). -/
theorem status_loadReply (sp : Space) (a : Nat) :
    (loadReply sp a).status = if maxIndex sp < a then .badIndex else .ok := by
  rcases Nat.lt_or_ge (maxIndex sp) a with h | h
  · rw [loadReply_of_gt h, if_pos h]
  · obtain ⟨r0, r1, hr, -⟩ := loadReply_of_le h
    rw [hr, if_neg (not_lt.mpr h)]

section causes
variable (o : Fields)

theorem sh_eq_zero_iff : o.sh = 0 ↔ o.sh.toNat = 0 := BitVec.toNat_inj.symm

/-- The cause of `BAD_OPERAND` that every operation which reads `a` only has. -/
theorem onlyA_eq_false_iff : onlyA o = false ↔ ¬ o.b = 0 ∨ ¬ o.c = 0 ∨ ¬ o.sh.toNat = 0 := by
  rw [← Bool.not_eq_true, onlyA_iff, not_and_or, not_and_or, sh_eq_zero_iff]

theorem onlyAB_eq_false_iff : onlyAB o = false ↔ ¬ o.c = 0 ∨ ¬ o.sh.toNat = 0 := by
  rw [← Bool.not_eq_true, onlyAB_iff, not_and_or, sh_eq_zero_iff]

theorem upperClear_eq_false_iff : upperClear o = false ↔ 2 ^ 32 ≤ o.a.toNat := by
  rw [← Bool.not_eq_true, upperClear_iff, upper_zero_iff, not_lt]

theorem helperInDomain_eq_false_iff : helperInDomain o = false ↔ 65535 < o.a.toNat := by
  rw [← Bool.not_eq_true, helperInDomain_iff, not_le]

theorem shiftInDomain_eq_false_iff : shiftInDomain o = false ↔ ¬ (65 ≤ o.sh.toNat ∧ o.sh.toNat ≤ 127) := by
  rw [← Bool.not_eq_true, shiftInDomain_iff]

/-- The two causes `DEC32` has. -/
theorem dec32Checks_eq_false_iff : (onlyA o && upperClear o) = false ↔
    2 ^ 32 ≤ o.a.toNat ∨ ¬ o.b = 0 ∨ ¬ o.c = 0 ∨ ¬ o.sh.toNat = 0 := by
  rw [Bool.and_eq_false_iff, onlyA_eq_false_iff, upperClear_eq_false_iff, or_comm]

/-- The two causes a logarithm helper has. -/
theorem helperChecks_eq_false_iff : (onlyA o && helperInDomain o) = false ↔
    (¬ o.b = 0 ∨ ¬ o.c = 0 ∨ ¬ o.sh.toNat = 0) ∨ 65535 < o.a.toNat := by
  rw [Bool.and_eq_false_iff, onlyA_eq_false_iff, helperInDomain_eq_false_iff]

end causes

/-- Every operation's answer has the status of the rule: its check fails exactly where a cause of R256 applies to its code. -/
theorem status_reply (i : Instr) : (reply i).status = statusRule i.opcode i.fields := by
  cases i with
  | dec32 o =>
    exact (status_checked (st' := .ok) rfl (dec32Checks_eq_false_iff o)).trans (by simp [statusRule, Instr.opcode, Instr.fields])
  | dec64 o =>
    exact (status_checked (st' := .ok) rfl (onlyA_eq_false_iff o)).trans (by simp [statusRule, Instr.opcode, Instr.fields])
  | mul64 o | mulhi64 o =>
    exact (status_checked rfl (onlyAB_eq_false_iff o)).trans (by simp [statusRule, Instr.opcode, Instr.fields])
  | mulshift64 o =>
    exact (status_checked rfl (shiftInDomain_eq_false_iff o)).trans (by simp [statusRule, Instr.opcode, Instr.fields])
  | pow5bits o | log10pow2 o | log10pow5 o =>
    exact (status_checked rfl (helperChecks_eq_false_iff o)).trans
      (by simp [statusRule, Instr.opcode, Instr.fields, or_assoc])
  | pow5 o =>
    exact (status_checked (st' := if 325 < o.a.toNat then .badIndex else .ok) (status_loadReply .p5 _)
      (onlyA_eq_false_iff o)).trans (by simp [statusRule, Instr.opcode, Instr.fields])
  | pow5inv o =>
    exact (status_checked (st' := if 341 < o.a.toNat then .badIndex else .ok) (status_loadReply .p5inv _)
      (onlyA_eq_false_iff o)).trans (by simp [statusRule, Instr.opcode, Instr.fields])

/-- A code of the map of R66 names an operation. -/
theorem exists_decodeOp {op : BitVec 8} (o : Fields) (h : op ∈ [0x01, 0x02, 0x10, 0x11, 0x12, 0x20, 0x21, 0x22, 0x30, 0x31]) :
    ∃ i, decodeOp op o = .ok i := by
  simp only [List.mem_cons, List.not_mem_nil, or_false] at h
  rcases h with rfl | rfl | rfl | rfl | rfl | rfl | rfl | rfl | rfl | rfl <;> exact ⟨_, rfl⟩

/-- The status of every command word is the rule's, read off the word's own code and fields (R256). -/
theorem status_replyWord (w : CmdWord) : (replyWord w).status = statusRule (CmdWord.op w) (CmdWord.fields w) := by
  by_cases hmem : CmdWord.op w ∈ [0x01, 0x02, 0x10, 0x11, 0x12, 0x20, 0x21, 0x22, 0x30, 0x31]
  · obtain ⟨i, hi⟩ := exists_decodeOp (CmdWord.fields w) hmem
    obtain ⟨hop, hfields⟩ := opcode_fields_of_decodeOp hi
    rw [← hop, ← hfields, ← status_reply, replyWord, decodeWord, hi]
  · rw [replyWord_reserved hmem, statusRule, if_pos hmem]

/-! ### Transactions on the ports (R266) -/

variable {s : State} {p : Nat}

/-- The response of a transaction is a function of its word alone (R266). -/
theorem response_transact (w : CmdWord) (h : s.Ready p) : (s.transact p w).map Prod.snd = some (replyWord w) := by
  rw [transact_eq h, Option.map_some]

/-- The entry of a port decides its command word. -/
theorem command_of_getElem? {t : State} (h : t.ports[p]? = s.ports[p]?) : t.command p = s.command p :=
  congrArg Option.join h

/-- A step on a port of the block leaves no command word there, touches no other port, and hands over the answer to the word that was
there, if there was one. -/
theorem step_selected (hr : s.rst = false) (hp : p < s.ports.length) : ∃ t : State,
    step { s with sel := p } = .next t ∧ t.ports = s.ports.set p none ∧ t.rst = false ∧
    t.response p = (s.command p).map replyWord := by
  cases hc : s.command p with
  | none =>
    have hidle : s.ports[p] = none := (List.getElem?_eq_some_iff.mp (getElem?_of_idle hp hc)).2
    refine ⟨_, step_idle (s := { s with sel := p }) hr hp hc, ?_, hr, response_of_out_none rfl⟩
    rw [deliverNothing_ports, ← hidle, List.set_getElem_self]
  | some w =>
    exact ⟨_, step_command (s := { s with sel := p }) hr hc, rfl, hr, response_conclude { s with sel := p } (replyWord w)⟩

end Sys2Proof.Machine

open Sys2Proof Sys2Proof.Machine

namespace Sys2Proof.Proofs

/-- Settles O9: the step concludes with the word's answer, whose status is the rule's. -/
theorem refusalPriority : Obligations.RefusalPriority := by
  intro s p w hready
  exact ⟨_, replyWord w, step_present hready, response_conclude _ _, status_replyWord w⟩

/-- Settles O13: a refused answer is its code and zeros, a transaction leaves every port as it was before the word was presented, and
the next answer is a function of its own word. -/
theorem refusalLeavesNothingBehind : Obligations.RefusalLeavesNothingBehind := by
  intro s t p w r hready htransact hrefused
  rw [transact_eq hready, Option.some.injEq, Prod.mk.injEq] at htransact
  obtain ⟨rfl, rfl⟩ := htransact
  refine ⟨replyWord_refusal w hrefused, rfl, ports_transact hready _, fun q hq => response_of_out_ne (conclude_out _ _) hq,
    fun q w' hq => ?_⟩
  rw [response_transact w' (ready_conclude hready hq _), response_transact w' hq]

/-- Settles O49: each step clears its own port and answers that port's word, and clearing two ports commutes. -/
theorem portsDoNotInteract : Obligations.PortsDoNotInteract := by
  refine ⟨fun s p q hpq hp hq hr => ?_, fun s s' p p' w h h' => ?_⟩
  · obtain ⟨t, hst, htports, htr, htresp⟩ := step_selected hr hp
    obtain ⟨u, hsu, huports, -, huresp⟩ := step_selected (p := q) htr (by rwa [htports, List.length_set])
    obtain ⟨t', hst', htports', htr', htresp'⟩ := step_selected hr hq
    obtain ⟨u', hsu', huports', -, huresp'⟩ := step_selected (p := p) htr' (by rwa [htports', List.length_set])
    have hq_kept : t.ports[q]? = s.ports[q]? := by rw [htports, List.getElem?_set_ne hpq]
    have hp_kept : t'.ports[p]? = s.ports[p]? := by rw [htports', List.getElem?_set_ne hpq.symm]
    refine ⟨t, u, t', u', hst, hsu, hst', hsu', ?_, ?_, ?_, hq_kept, hp_kept⟩
    · rw [huports, htports, huports', htports', List.set_comm _ _ hpq]
    · rw [htresp, huresp', command_of_getElem? hp_kept]
    · rw [huresp, htresp', command_of_getElem? hq_kept]
  · rw [response_transact w h, response_transact w h']

end Sys2Proof.Proofs
end

section
/-! PROOFS. Reset and hazards (70_reset_and_hazards.md): the responses to a sequence of transactions, and the completion of every
transaction. -/

namespace Sys2Proof.Machine

variable {s : State} {p : Nat}

/-- A caller's first transaction is answered by its word, and the others start from the state it leads to. -/
theorem answers_cons (w : CmdWord) (cs : List (Nat × CmdWord)) (h : s.Ready p) :
    s.answers ((p, w) :: cs) = some (replyWord w) :: (conclude (s.present p w) (replyWord w)).answers cs := by
  rw [State.answers, transact_eq h]

/-- Each response is the answer to its own word: a transaction leaves the ports of the later ones ready (R284). -/
theorem answers_eq_map_replyWord {cs : List (Nat × CmdWord)} (h : ∀ c ∈ cs, s.Ready c.1) :
    s.answers cs = cs.map fun c => some (replyWord c.2) := by
  induction cs generalizing s with
  | nil => rfl
  | cons c cs ih =>
    obtain ⟨hc, hcs⟩ := List.forall_mem_cons.mp h
    rw [answers_cons _ _ hc, ih fun d hd => ready_conclude hc (hcs d hd) _, List.map_cons]

end Sys2Proof.Machine

open Sys2Proof Sys2Proof.Machine

namespace Sys2Proof.Proofs

/-- Settles O48: on either side each response is the answer to its own word. -/
theorem responsesIgnoreHistory : Obligations.ResponsesIgnoreHistory := by
  intro s cs hready
  have hreset : State.reset.Ready 0 := ⟨Nat.one_pos, rfl, rfl⟩
  simp only [answers_eq_map_replyWord hready, response_transact _ hreset]

/-- Settles O50: the step on a presented word concludes its transaction, which leaves every ready port ready. -/
theorem everyTransactionCompletes : Obligations.EveryTransactionCompletes := by
  intro s p w hready
  exact ⟨_, replyWord w, step_present hready, response_conclude _ _, command_conclude _ _,
    fun _ hq => ready_conclude hready hq _⟩

end Sys2Proof.Proofs
end

section
/-! PROOFS. The encoding (30_encoding.md) in the other direction: encoding and decoding a command word are inverse, so are writing and
reading a response word, and the bytes and the hexadecimal digits of a word are its slices. -/

namespace Sys2Proof

/-! ### Decoding what was encoded (R61, R66) -/

/-- The map of R66 is read back: an operation's own code and fields give the operation. -/
theorem decodeOp_opcode_fields (i : Instr) : decodeOp i.opcode i.fields = .ok i := by
  cases i <;> rfl

/-- An operation's word decodes to the operation. -/
@[simp] theorem decodeWord_encodeWord (i : Instr) : decodeWord (encodeWord i) = .ok i := by
  rw [decodeWord, encodeWord, op_packCommand, fields_packCommand, decodeOp_opcode_fields]

/-! ### Bytes (20_memory.md R44) -/

/-- A word of `n` bytes is read back from its bytes. -/
theorem ofNat_numberOfBytes_bytesOf {m n : Nat} (h : 2 ^ m = 256 ^ n) (w : BitVec m) :
    BitVec.ofNat m (numberOfBytes (bytesOf n w.toNat)) = w := by
  rw [numberOfBytes_bytesOf (h ▸ w.isLt), BitVec.ofNat_toNat, BitVec.setWidth_eq]

/-- The bytes of an operation decode to the operation. -/
theorem decodeBytes_encodeBytes (i : Instr) : decodeBytes (encodeBytes i) = .ok i := by
  rw [decodeBytes, encodeBytes, if_pos (bytesOf_length _ _), ofNat_numberOfBytes_bytesOf (by norm_num),
    decodeWord_encodeWord]

end Sys2Proof

namespace Sys2Proof.Machine

/-! ### Reading a response word (R63) -/

/-- Words that agree on a slice agree on its bits. -/
theorem getLsbD_of_slice {m lo n i : Nat} {v w : BitVec m} (h : v.extractLsb' lo n = w.extractLsb' lo n) (hlo : lo ≤ i)
    (hi : i < lo + n) : v.getLsbD i = w.getLsbD i := by
  have hbit := congrArg (·.getLsbD (i - lo)) h
  simpa [BitVec.getLsbD_extractLsb', show i - lo < n by omega, show lo + (i - lo) = i by omega] using hbit

/-- The ten fields of R63 cover the response word. -/
theorem word_eq_of_fields {v w : RspWord} (htop : v.extractLsb' 172 4 = w.extractLsb' 172 4)
    (hstatus : v.extractLsb' 168 4 = w.extractLsb' 168 4) (hmiddle : v.extractLsb' 166 2 = w.extractLsb' 166 2)
    (hbounds : v.getLsbD 165 = w.getLsbD 165) (hshift : v.getLsbD 164 = w.getLsbD 164)
    (hcls : v.extractLsb' 161 3 = w.extractLsb' 161 3) (hsign : v.getLsbD 160 = w.getLsbD 160)
    (he : v.extractLsb' 128 32 = w.extractLsb' 128 32) (hr1 : v.extractLsb' 64 64 = w.extractLsb' 64 64)
    (hr0 : v.extractLsb' 0 64 = w.extractLsb' 0 64) : v = w := by
  refine BitVec.eq_of_getLsbD_eq fun i hi => ?_
  obtain h | h | h | rfl | h | rfl | rfl | h | h | h : i < 64 ∨ (64 ≤ i ∧ i < 128) ∨ (128 ≤ i ∧ i < 160) ∨ i = 160 ∨
      (161 ≤ i ∧ i < 164) ∨ i = 164 ∨ i = 165 ∨ (166 ≤ i ∧ i < 168) ∨ (168 ≤ i ∧ i < 172) ∨ 172 ≤ i := by omega
  · exact getLsbD_of_slice hr0 (by omega) (by omega)
  · exact getLsbD_of_slice hr1 h.1 h.2
  · exact getLsbD_of_slice he h.1 h.2
  · exact hsign
  · exact getLsbD_of_slice hcls h.1 h.2
  · exact hshift
  · exact hbounds
  · exact getLsbD_of_slice hmiddle h.1 h.2
  · exact getLsbD_of_slice hstatus h.1 h.2
  · exact getLsbD_of_slice htop h hi

/-- A response's word is read as the response. -/
@[simp] theorem ofWord_word (r : Response) : Response.ofWord r.word = some r := by
  rw [Response.ofWord, if_pos ⟨word_reservedTop r, word_reservedMiddle r⟩, word_status, word_cls, ofCode_code,
    clsOfCode_clsCode]
  simp only [word_r0, word_r1, word_e, word_sign, word_mmShift, word_acceptBounds]

/-- A word that is read as a response is the response's word: the bits that are always 0 and the two codes were checked, the other
fields were taken as they are. -/
theorem word_of_ofWord {w : RspWord} {r : Response} (h : Response.ofWord w = some r) : r.word = w := by
  unfold Response.ofWord at h
  split at h
  case isFalse => cases h
  case isTrue hzero =>
    split at h
    next st c hst hc =>
      cases h
      exact word_eq_of_fields ((word_reservedTop _).trans hzero.1.symm) ((word_status _).trans (code_of_ofCode hst))
        ((word_reservedMiddle _).trans hzero.2.symm) (word_acceptBounds _) (word_mmShift _)
        ((word_cls _).trans (clsCode_of_clsOfCode hc)) (word_sign _) (word_e _) (word_r1 _) (word_r0 _)
    next => cases h

/-! ### Hexadecimal digits (R71) -/

theorem hexDigits_length (n v : Nat) : (hexDigits n v).length = n := by
  induction n generalizing v with
  | zero => rfl
  | succ n ih => simp [hexDigits, ih]

/-- The sixteen digits in the order of their values. -/
def hexAlphabet : List Char := ['0', '1', '2', '3', '4', '5', '6', '7', '8', '9', 'A', 'B', 'C', 'D', 'E', 'F']

/-- The last digit of a number is appended to the digits before it. -/
theorem hexDigits_succ (n v : Nat) : hexDigits (n + 1) v = hexDigits n (v / 16) ++ hexAlphabet[v % 16]?.toList := by
  have hdigit : v % 16 < hexAlphabet.length := Nat.mod_lt _ (by decide)
  change hexDigits n (v / 16) ++ [hexAlphabet[v % 16]?.getD '0'] = _
  rw [List.getElem?_eq_getElem hdigit]
  rfl

/-- Digit `k` of `n`, counted from the left, is the one of weight `16^(n-1-k)`. -/
theorem hexDigits_getElem? {n k : Nat} (v : Nat) (h : k < n) :
    (hexDigits n v)[k]? = hexAlphabet[v / 16 ^ (n - 1 - k) % 16]? := by
  induction n generalizing v with
  | zero => omega
  | succ n ih =>
    rw [hexDigits_succ, Nat.add_sub_cancel]
    obtain hk | rfl := Nat.lt_succ_iff_lt_or_eq.mp h
    · have hweight : n - k = (n - 1 - k) + 1 := by omega
      rw [List.getElem?_append_left (by rwa [hexDigits_length]), ih _ hk, hweight, Nat.div_div_eq_div_mul, Nat.pow_succ']
    · rw [List.getElem?_append_right (by rw [hexDigits_length]), hexDigits_length, Nat.sub_self, Nat.pow_zero, Nat.div_one]
      cases hexAlphabet[v % 16]? <;> rfl

/-- The digits of a word are its 4-bit slices, the topmost first. -/
theorem hexDigits_word {m n k : Nat} (w : BitVec m) (h : k < n) :
    (hexDigits n w.toNat)[k]? = hexAlphabet[(w.extractLsb' (4 * (n - 1 - k)) 4).toNat]? := by
  rw [hexDigits_getElem? _ h, BitVec.extractLsb'_toNat, Nat.shiftRight_eq_div_pow, show 16 = 2 ^ 4 by rfl, ← Nat.pow_mul]

end Sys2Proof.Machine

open Sys2Proof Sys2Proof.Machine

namespace Sys2Proof.Proofs

/-- Settles O2: a word that decodes is the encoding (`encodeWord_of_decodeWord`), and an encoding decodes. -/
theorem decodeIffEncode : Obligations.DecodeIffEncode :=
  fun _ i => ⟨encodeWord_of_decodeWord, fun h => h ▸ decodeWord_encodeWord i⟩

/-- Settles O1, by evaluating the decoder on the twelve words. -/
theorem writtenWordsDecode : Obligations.WrittenWordsDecode := by
  unfold Obligations.WrittenWordsDecode
  decide

/-- Settles O4: the bytes are the word's slices, and no other length passes the decoder's check. -/
theorem commandBytesLittleEndian : Obligations.CommandBytesLittleEndian := fun i =>
  ⟨bytesOf_length _ _, fun _ hk => bytesOf_word _ hk, decodeBytes_encodeBytes i, fun _ hlength => if_neg hlength⟩

/-- Settles O6: reading checks or keeps every one of the 176 bits. -/
theorem responseReadIffWritten : Obligations.ResponseReadIffWritten :=
  fun _ r => ⟨word_of_ofWord, fun h => h ▸ ofWord_word r⟩

/-- Settles O8: the digits are the word's 4-bit slices. -/
theorem hostLineDigits : Obligations.HostLineDigits :=
  fun _ => ⟨hexDigits_length _ _, fun _ hk => hexDigits_word _ hk⟩

/-- Settles O53: the bytes are the slices of the word, which is read back from them, and no other length is read. -/
theorem responseAndEntryBytesLittleEndian : Obligations.ResponseAndEntryBytesLittleEndian := by
  refine ⟨fun r => ⟨bytesOf_length _ _, fun _ hk => bytesOf_word _ hk, ?_⟩,
    fun t => ⟨bytesOf_length _ _, fun _ hk => bytesOf_word _ hk, ?_⟩, fun _ h => if_neg h, fun _ h => if_neg h⟩
  · rw [Response.ofBytes, Response.bytes, if_pos (bytesOf_length _ _), ofNat_numberOfBytes_bytesOf (by norm_num), ofWord_word]
  · rw [entryOfBytes, entryBytes, if_pos (bytesOf_length _ _), ofNat_numberOfBytes_bytesOf (by norm_num)]

end Sys2Proof.Proofs
end

section
/-! PROOFS. The decomposer's outputs by class (40_decomposer.md, sections 2 and 4): their ranges, and the value of a finite float. -/

namespace Sys2Proof.Machine

/-! ### The ranges of the outputs (R102) -/

/-- The ranges of section 4 by class, with the constants of a format (R91), on the words that hold `m2` and `e2`. -/
def formatRange (f : Format) (c : Cls) (m2 : U64) (e2 : Int) : Prop :=
  match c with
  | .zero => m2 = 0 ∧ e2 = 0
  | .subnormal => 1 ≤ m2.toNat ∧ m2.toNat ≤ 2 ^ mantissaWidth f - 1 ∧ e2 = e2Sub f
  | .normal => 2 ^ mantissaWidth f ≤ m2.toNat ∧ m2.toNat ≤ 2 ^ (mantissaWidth f + 1) - 1 ∧ e2Sub f ≤ e2 ∧
      e2 ≤ efMax f - 1 - e2Off f
  | .inf => m2 = 0 ∧ e2 = specialExp
  | .nan => 1 ≤ m2.toNat ∧ m2.toNat ≤ 2 ^ mantissaWidth f - 1 ∧ e2 = specialExp

section ranges
variable {f : Format} {c : Cls} {m2 : U64} {e2 : Int}

/-- `E2_SUB` is the exponent of the smallest normal, `1 - E2_OFF` (R91). -/
theorem e2Sub_eq (f : Format) : e2Sub f = 1 - e2Off f := by
  cases f <;> rfl

/-- The response's words lie in the ranges of its class. -/
theorem decompose_range (f : Format) (bits : Nat) : formatRange f (classify f (efOf f bits) (mfOf f bits))
    (decompose f bits).r0 (decompose f bits).e.toInt := by
  have hef := efOf_lt f bits
  have hmf := mfOf_lt f bits
  have hr0 := decompose_r0_toNat f bits
  have he2 := decompose_e_toInt f bits
  obtain ⟨hc, he, hm⟩ | ⟨hc, he, hm⟩ | ⟨hc, he, hm⟩ | ⟨hc, he, hm⟩ | ⟨hc, he, hm⟩ :=
    classify_cases f (efOf f bits) (mfOf f bits) <;> rw [hc] at hr0 he2 ⊢
  · exact ⟨decompose_r0_eq_zero_iff.mpr hr0, he2⟩
  · exact ⟨hr0 ▸ Nat.pos_of_ne_zero hm, hr0 ▸ Nat.le_sub_one_of_lt hmf, he2⟩
  · rw [significand] at hr0
    rw [exponent] at he2
    simp only [formatRange, e2Sub_eq, Nat.pow_succ]
    omega
  · exact ⟨decompose_r0_eq_zero_iff.mpr hr0, he2⟩
  · exact ⟨hr0 ▸ Nat.pos_of_ne_zero hm, hr0 ▸ Nat.le_sub_one_of_lt hmf, he2⟩

/-- `m2` has at most one bit more than the mantissa field. -/
theorem formatRange.lt (h : formatRange f c m2 e2) : m2.toNat < 2 ^ (mantissaWidth f + 1) := by
  have hpos : 0 < 2 ^ mantissaWidth f := by positivity
  cases c <;> simp only [formatRange, ← BitVec.toNat_inj, BitVec.ofNat_eq_ofNat, BitVec.toNat_ofNat, Nat.pow_succ] at h ⊢ <;>
    omega

/-- The ranges of a format are among those the invariant names. -/
theorem formatRange.clsRange (h : formatRange f c m2 e2) : clsRange c m2.toNat e2 := by
  cases f <;> cases c <;>
    simp only [formatRange, Machine.clsRange, ← BitVec.toNat_inj, BitVec.ofNat_eq_ofNat, BitVec.toNat_ofNat, mantissaWidth, e2Sub,
      e2Off, efMax, specialExp] at h ⊢ <;> omega

end ranges

/-! ### The value of a finite float (R97) -/

section value
variable {f : Format} {bits : Nat}

/-- The value is the signed significand times the weight of its last bit. -/
theorem floatValue_eq (f : Format) (bits : Nat) : floatValue f bits =
    (if (decompose f bits).sign then -1 else 1) * floatSignificand f bits * lastBitWeight f (efOf f bits) := rfl

/-- A finite float of value 0 is the class `ZERO`, whose `m2` is 0. -/
theorem decompose_of_value_zero (hfin : IsFinite f bits) (h : floatValue f bits = 0) : (decompose f bits).r0.toNat = 0 := by
  have hweight : lastBitWeight f (efOf f bits) ≠ 0 := zpow_ne_zero _ (by norm_num)
  have hsig : floatSignificand f bits = 0 := by
    have habs := abs_floatValue f bits
    rw [h, abs_zero] at habs
    exact_mod_cast (mul_eq_zero.mp habs.symm).resolve_right hweight
  have hpos : 0 < 2 ^ mantissaWidth f := by positivity
  rw [decompose_r0_toNat]
  obtain ⟨hc, -, -⟩ | ⟨-, he, hm⟩ | ⟨-, he, -⟩ | ⟨-, he, -⟩ | ⟨-, he, -⟩ := classify_cases f (efOf f bits) (mfOf f bits)
  · rw [hc]; rfl
  · exact absurd ((floatSignificand_subnormal he).symm.trans hsig) hm
  · rw [floatSignificand_normal he] at hsig
    omega
  · exact absurd he hfin
  · exact absurd he hfin

/-- The identity of R97: a finite float is `(-1)^sign * 4 * m2 * 2^e2` with the response's outputs. -/
theorem floatValue_decompose (hfin : IsFinite f bits) : floatValue f bits =
    (if (decompose f bits).sign then -1 else 1) * 4 * ((decompose f bits).r0.toNat : ℚ) *
      (2 : ℚ) ^ (decompose f bits).e.toInt := by
  by_cases hzero : floatValue f bits = 0
  · rw [decompose_of_value_zero hfin hzero, hzero, Nat.cast_zero, mul_zero, zero_mul]
  · obtain ⟨hr, hw⟩ := decompose_finite hfin hzero
    rw [floatValue_eq, hr, hw]
    ring

end value

end Sys2Proof.Machine

open Sys2Proof Sys2Proof.Machine

namespace Sys2Proof.Proofs

/-- Settles O19: zero has `m2 = 0`, and every other finite float's response holds its significand and the weight of its last bit. -/
theorem floatValueIsFourM2TimesTwoToE2 : Obligations.FloatValueIsFourM2TimesTwoToE2 :=
  ⟨fun bits s hfin => ⟨_, exec_dec32_pattern s bits, floatValue_decompose hfin⟩,
    fun bits s hfin => ⟨_, exec_dec64_pattern s bits, floatValue_decompose hfin⟩⟩

/-- Settles O21: the ranges of `formatRange`, which each format's constants turn into the numbers of the table. -/
theorem decomposerOutputRanges : Obligations.DecomposerOutputRanges :=
  ⟨fun bits s => ⟨_, _, exec_dec32_pattern s bits, rfl, rfl, (decompose_range _ _).lt, decompose_range .binary32 bits.toNat⟩,
    fun bits s => ⟨_, _, exec_dec64_pattern s bits, rfl, rfl, (decompose_range _ _).lt, decompose_range .binary64 bits.toNat⟩⟩

end Sys2Proof.Proofs
end

section
/-! PROOFS. The multiplier, the logarithm helpers and the table (41_multiply_shift.md, 42_pow5_table.md): the sentences the spec marks as
derived, and the operands of a correct Selector (49_downstream_context.md). -/

namespace Sys2Proof.Machine

/-! ### Products built from parts (R123, R173) -/

/-- The lower of the two halves that R123 builds is a word. -/
theorem partialProducts_low_lt (a b : Nat) : (partialProducts a b).2 < 2 ^ 64 := by
  simp only [partialProducts]
  omega

/-- The two halves of R123 are the words of the product. -/
theorem partialProducts_words (a b : Nat) : BitVec.ofNat 64 (partialProducts a b).2 = lowWord (a * b) ∧
    BitVec.ofNat 64 (partialProducts a b).1 = highWord (a * b) := by
  have hlow := partialProducts_low_lt a b
  rw [lowWord, highWord, ← partialProducts_eq a b]
  constructor <;> congr 1 <;> omega

/-- The carry of R173 and the bounds on the operands keep every word of the product. -/
theorem pairedProduct_eq {m low high : U64} (hm : m.toNat < 2 ^ 59) (hhigh : high.toNat < 2 ^ 62) :
    pairedProduct m low high = m.toNat * (high.toNat * 2 ^ 64 + low.toNat) := by
  have hlowProduct : m.toNat * low.toNat < 2 ^ 59 * 2 ^ 64 := Nat.mul_lt_mul'' hm low.isLt
  have hhighProduct : m.toNat * high.toNat < 2 ^ 59 * 2 ^ 62 := Nat.mul_lt_mul'' hm hhigh
  rw [Nat.mul_add, ← Nat.mul_assoc]
  simp only [pairedProduct]
  split <;> omega

/-! ### The direction of the approximation (R165) -/

/-- The bit length of `5^i` is at most 125 up to `i = 53`, where the entry is exact. -/
theorem log_pow5_le {i : Nat} (h : i ≤ 53) : Nat.log 2 (5 ^ i) + 1 ≤ 125 :=
  Nat.log_lt_of_lt_pow (by positivity) ((Nat.pow_le_pow_right (by norm_num) h).trans_lt (by norm_num))

/-- Where the bit length is at most 125 the entry is `5^i` moved up, exactly. -/
theorem pow5Entry_exact {i : Nat} (h : Nat.log 2 (5 ^ i) + 1 ≤ 125) :
    pow5Entry i * 2 ^ (Nat.log 2 (5 ^ i) + 1) = 5 ^ i * 2 ^ 125 := by
  rw [pow5Entry_eq_log, if_pos h, Nat.mul_assoc, ← Nat.pow_add, Nat.sub_add_cancel h]

/-- `POW5[i] * 2^(pb-125) <= 5^i < (POW5[i] + 1) * 2^(pb-125)`, multiplied out: the entry is the floor. -/
theorem pow5Entry_floor (i : Nat) :
    pow5Entry i * 2 ^ (Nat.log 2 (5 ^ i) + 1) ≤ 5 ^ i * 2 ^ 125 ∧
    5 ^ i * 2 ^ 125 < (pow5Entry i + 1) * 2 ^ (Nat.log 2 (5 ^ i) + 1) := by
  rcases le_or_gt (Nat.log 2 (5 ^ i) + 1) 125 with h | h
  · rw [← pow5Entry_exact h]
    exact ⟨le_rfl, Nat.mul_lt_mul_of_pos_right (Nat.lt_succ_self _) (by positivity)⟩
  · have hsplit : 2 ^ (Nat.log 2 (5 ^ i) + 1) = 2 ^ (Nat.log 2 (5 ^ i) + 1 - 125) * 2 ^ 125 := by
      rw [← Nat.pow_add, Nat.sub_add_cancel h.le]
    rw [pow5Entry_eq_log, if_neg (not_le.mpr h), hsplit, ← Nat.mul_assoc, ← Nat.mul_assoc]
    exact ⟨Nat.mul_le_mul_right _ (Nat.div_mul_le_self _ _),
      Nat.mul_lt_mul_of_pos_right (Nat.lt_mul_of_div_lt (Nat.lt_succ_self _) (by positivity)) (by positivity)⟩

/-- `POW5INV[i] - 1 <= 2^(pb+124) / 5^i < POW5INV[i]`, multiplied out: the entry is the floor plus 1. -/
theorem pow5InvEntry_ceil (i : Nat) :
    (pow5InvEntry i - 1) * 5 ^ i ≤ 2 ^ (Nat.log 2 (5 ^ i) + 1 + 124) ∧
    2 ^ (Nat.log 2 (5 ^ i) + 1 + 124) < pow5InvEntry i * 5 ^ i := by
  have hpb : Nat.log 2 (5 ^ i) + 1 - 1 + 125 = Nat.log 2 (5 ^ i) + 1 + 124 := by omega
  rw [pow5InvEntry_eq_log, hpb, Nat.add_sub_cancel]
  exact ⟨Nat.div_mul_le_self _ _, Nat.lt_mul_of_div_lt (Nat.lt_succ_self _) (by positivity)⟩

/-! ### The offsets of the compressed layout (R174) -/

/-- What section 4 of 42_pow5_table.md says of the offset at an index: at most 2, 0 at the multiples of the stride, elsewhere what the
estimate lacks of the entry, and 2 exactly at the indices listed. -/
abbrev OffsetRepairs (estimate entry : Nat → Nat) (twos : List Nat) (i off : Nat) : Prop :=
  off ≤ 2 ∧ (i % 26 = 0 → off = 0) ∧ (i % 26 ≠ 0 → off + estimate i = entry i) ∧ (off = 2 ↔ i ∈ twos)

/-- The packed table has an offset for the index, and it is the one that repairs the estimate. -/
def offsetRepairs (words : List (BitVec 32)) (estimate entry : Nat → Nat) (twos : List Nat) (i : Nat) : Bool :=
  (packedOffset words i).any fun off => decide (OffsetRepairs estimate entry twos i off)

theorem of_offsetRepairs {words : List (BitVec 32)} {estimate entry : Nat → Nat} {twos : List Nat} {i : Nat}
    (h : offsetRepairs words estimate entry twos i = true) :
    ∃ off : Nat, packedOffset words i = some off ∧ OffsetRepairs estimate entry twos i off := by
  rw [offsetRepairs, Option.any_eq_true] at h
  obtain ⟨off, hoff, hrepair⟩ := h
  exact ⟨off, hoff, of_decide_eq_true hrepair⟩

/-- The compressed estimate of a `POW5` entry, without its offset (R172). -/
def pow5Estimate (i : Nat) : Nat :=
  5 ^ (i % 26) * pow5Entry (26 * (i / 26)) / 2 ^ (pow5Bits i - pow5Bits (26 * (i / 26)))

/-- The compressed estimate of a `POW5INV` entry, without its offset (R176). -/
def pow5InvEstimate (i : Nat) : Nat :=
  5 ^ (26 * ((i + 25) / 26) - i) * (pow5InvEntry (26 * ((i + 25) / 26)) - 1) /
    2 ^ (pow5Bits (26 * ((i + 25) / 26)) - pow5Bits i) + 1

theorem pow5_offsets_check : (List.range 326).all
    (offsetRepairs romOffsWords pow5Estimate pow5Entry [83, 85, 89, 90, 93, 124, 236, 239, 242, 248, 295]) = true := by
  decide +kernel

theorem pow5Inv_offsets_check :
    (List.range 342).all (offsetRepairs romOffsInvWords pow5InvEstimate pow5InvEntry [202]) = true := by
  decide +kernel

/-! ### The operands of a correct Selector -/

section legal
variable {n : Nat}

theorem ofNat_word_toNat (h : n ≤ 65535) : (BitVec.ofNat 64 n).toNat = n := by
  rw [BitVec.toNat_ofNat, Nat.mod_eq_of_lt (by omega)]

/-- A helper's argument within the domain is legal when nothing else is given (R62). -/
theorem wellFormed_helper (h : n ≤ 65535) : WellFormed (.pow5bits { a := BitVec.ofNat 64 n }) ∧
    WellFormed (.log10pow2 { a := BitVec.ofNat 64 n }) ∧ WellFormed (.log10pow5 { a := BitVec.ofNat 64 n }) := by
  have hlegal : ({ a := BitVec.ofNat 64 n } : Fields).helperArgumentLegal = true :=
    decide_eq_true ((ofNat_word_toNat h).trans_le h)
  exact ⟨hlegal, hlegal, hlegal⟩

theorem wellFormed_pow5 (h : n ≤ 325) : WellFormed (.pow5 { a := BitVec.ofNat 64 n }) :=
  decide_eq_true ((ofNat_word_toNat (by omega)).trans_le h)

theorem wellFormed_pow5inv (h : n ≤ 341) : WellFormed (.pow5inv { a := BitVec.ofNat 64 n }) :=
  decide_eq_true ((ofNat_word_toNat (by omega)).trans_le h)

end legal

/-- The Selector's index and shift for an exponent that is not negative. -/
theorem selector_nonneg {e2 q : Nat} (he : e2 ≤ 969) (hq : q = log10Pow2 e2 - if 3 < e2 then 1 else 0) :
    q ≤ 290 ∧ 118 ≤ (125 + pow5Bits q - 1 + (q - e2) : Int) ∧ (125 + pow5Bits q - 1 + (q - e2) : Int) ≤ 125 := by
  unfold log10Pow2 at hq
  unfold pow5Bits
  split at hq <;> omega

/-- The Selector's index and shift for a negative exponent. -/
theorem selector_neg {ne q i : Nat} (h1 : 1 ≤ ne) (hne : ne ≤ 1076) (hq : q = log10Pow5 ne - if 1 < ne then 1 else 0)
    (hi : i = ne - q) : q ≤ 751 ∧ 1 ≤ i ∧ i ≤ 325 ∧
      118 ≤ (q - (pow5Bits i - 125) : Int) ∧ (q - (pow5Bits i - 125) : Int) ≤ 122 := by
  unfold log10Pow5 at hq
  unfold pow5Bits
  split at hq <;> omega

end Sys2Proof.Machine

open Sys2Proof Sys2Proof.Machine

namespace Sys2Proof.Proofs

/-- Settles O26: no sum is above the bound, and the largest operands give it. -/
theorem mulshiftSumFits128 : Obligations.MulshiftSumFits128 :=
  ⟨fun m lo hi => mulShiftSum_le m.isLt lo.isLt hi.isLt, by norm_num [mulShiftSum]⟩

/-- Settles O27: the four partial products give the product, so their halves are its words. -/
theorem partialProductsAreExact : Obligations.PartialProductsAreExact := by
  intro a b s
  obtain ⟨hlow, hhigh⟩ := partialProducts_words a.toNat b.toNat
  rw [hlow, hhigh]
  exact ⟨partialProducts_eq _ _, exec_mul64 s ⟨rfl, rfl⟩, exec_mulhi64 s ⟨rfl, rfl⟩⟩

/-- Settles O31: each helper answers its formula, which is the logarithm on the whole domain. -/
theorem helpersAreExactLogarithms : Obligations.HelpersAreExactLogarithms := by
  intro o s ha hb hc hsh
  rw [exec_pow5bits s ⟨ha, hb, hc, hsh⟩, exec_log10pow2 s ⟨ha, hb, hc, hsh⟩, exec_log10pow5 s ⟨ha, hb, hc, hsh⟩,
    pow5Bits_eq ha, log10Pow2_eq ha, log10Pow5_eq ha]
  exact ⟨rfl, rfl, rfl⟩

/-- Settles O32: the products and the quotients grow with the argument. -/
theorem helperArithmeticFits64 : Obligations.HelperArithmeticFits64 := by
  refine ⟨fun e he => ?_, by norm_num [pow5Bits], by norm_num [log10Pow2], by norm_num [log10Pow5]⟩
  unfold pow5Bits log10Pow2 log10Pow5
  omega

/-- Settles O37, by the two finite checks over the indices. -/
theorem offsetsRepairTheEstimates : Obligations.OffsetsRepairTheEstimates := by
  refine ⟨fun i hi => of_offsetRepairs (all_of_range pow5_offsets_check (Nat.lt_succ_of_le hi)), fun i hi => ?_⟩
  obtain ⟨off, hoff, hle, hzero, hrepair, htwo⟩ := of_offsetRepairs (all_of_range pow5Inv_offsets_check (Nat.lt_succ_of_le hi))
  exact ⟨off, hoff, hle, hzero, hrepair, htwo.trans List.mem_singleton⟩

/-- Settles O38. -/
theorem pairedWordProductIsExact : Obligations.PairedWordProductIsExact :=
  fun _ _ _ => pairedProduct_eq

/-- Settles O39: the two loaded words are the entry, whose range gives that of the high word. -/
theorem loadedEntryRanges : Obligations.LoadedEntryRanges := by
  intro o s hb hc hsh
  refine ⟨fun hi => ?_, fun hi => ?_⟩
  · obtain ⟨r0, r1, hexec, hwords⟩ := exec_pow5 s ⟨hb, hc, hsh⟩ hi
    obtain ⟨hlow, hhigh⟩ := pow5Entry_range hi
    exact ⟨r0, r1, hexec, by omega, by omega, by omega⟩
  · obtain ⟨r0, r1, hexec, hwords⟩ := exec_pow5inv s ⟨hb, hc, hsh⟩ hi
    obtain ⟨hlow, hhigh, hfirst⟩ := pow5InvEntry_range hi
    refine ⟨r0, r1, hexec, by omega, by omega, by omega, ?_⟩
    rw [hwords]
    refine ⟨fun hlarge => ?_, fun hzero => ?_⟩
    · by_contra hne
      exact absurd (hfirst hne) (not_lt.mpr hlarge)
    · rw [hzero]
      decide

/-- Settles O40: the loaded words are the entry, which is the floor of the one fraction and the floor of the other plus 1. -/
theorem approximationDirection : Obligations.ApproximationDirection := by
  intro o s hb hc hsh i pb
  refine ⟨fun hi => ?_, fun hi => ?_⟩
  · obtain ⟨r0, r1, hexec, hwords⟩ := exec_pow5 s ⟨hb, hc, hsh⟩ hi
    obtain ⟨hle, hlt⟩ := pow5Entry_floor i
    refine ⟨r0, r1, hexec, ?_⟩
    rw [hwords]
    exact ⟨hle, hlt, fun h53 => pow5Entry_exact (log_pow5_le h53)⟩
  · obtain ⟨r0, r1, hexec, hwords⟩ := exec_pow5inv s ⟨hb, hc, hsh⟩ hi
    refine ⟨r0, r1, hexec, ?_⟩
    rw [hwords]
    exact pow5InvEntry_ceil i

/-- Settles O41: every operand is within its domain, by the bounds on the index. -/
theorem selectorNeverRefused : Obligations.SelectorNeverRefused := by
  constructor
  · intro e2 he q shift
    obtain ⟨hq, hshift⟩ := selector_nonneg (q := q) he rfl
    exact ⟨(wellFormed_helper (by omega)).2.1, (wellFormed_helper (by omega)).1, wellFormed_pow5inv (by omega), hq, hshift⟩
  · intro ne h1 hne q i shift
    obtain ⟨hq, hpos, hi, hshift⟩ := selector_neg (q := q) (i := i) h1 hne rfl rfl
    exact ⟨(wellFormed_helper (by omega)).2.2, (wellFormed_helper (by omega)).1, wellFormed_pow5 hi, hq, hpos, hi, hshift⟩

end Sys2Proof.Proofs
end
section
/-! PROOFS. The machine (10_state.md, 60_exceptions.md, 70_reset_and_hazards.md): the frame of an operation, the legal commands, the
record, the invariant that every step keeps, reset, and what is not retained. -/

namespace Sys2Proof.Machine

/-! ### The legal commands (30_encoding.md R62) -/

/-- A check whose refusal is no `OK` is answered `OK` exactly where it passes. -/
theorem checked_ok_iff {ok : Bool} {r : Response} {st : Status} (hr : r.status = .ok) (hst : st ≠ .ok) :
    (checked ok r st).status = .ok ↔ ok = true := by
  cases ok
  · exact iff_of_false hst Bool.false_ne_true
  · exact iff_of_true hr rfl

theorem onlyA_eq_otherThanAZero (o : Fields) : onlyA o = o.otherThanAZero :=
  (Bool.and_assoc ..).symm

theorem upperClear_eq_upperHalfZero (o : Fields) : upperClear o = o.upperHalfZero := by
  rw [Bool.eq_iff_iff, upperClear_iff, upper_zero_iff, Fields.upperHalfZero, decide_eq_true_iff]

/-- A load is answered `OK` exactly for the indices of its space, if its other fields are 0. -/
theorem checked_load_ok_iff (sp : Space) (o : Fields) : (checked (onlyA o) (loadReply sp o.a.toNat) .badOperand).status = .ok ↔
    (o.otherThanAZero && decide (o.a.toNat ≤ maxIndex sp)) = true := by
  rw [← onlyA_eq_otherThanAZero, Bool.and_eq_true, decide_eq_true_iff]
  cases onlyA o
  · simp [checked]
  · rw [checked_pass rfl, status_loadReply, ← not_lt]
    split <;> simp [*]

/-- An operation is answered `OK` exactly if its command meets the operand table: each check is a row's condition. -/
theorem reply_ok_iff (i : Instr) : (reply i).status = .ok ↔ WellFormed i := by
  cases i with
  | dec32 o =>
    rw [WellFormed, Instr.wellFormed, ← onlyA_eq_otherThanAZero, ← upperClear_eq_upperHalfZero]
    exact checked_ok_iff rfl (by decide)
  | dec64 o =>
    rw [WellFormed, Instr.wellFormed, ← onlyA_eq_otherThanAZero]
    exact checked_ok_iff rfl (by decide)
  | mul64 o | mulhi64 o | mulshift64 o => exact checked_ok_iff rfl (by decide)
  | pow5bits o | log10pow2 o | log10pow5 o =>
    rw [WellFormed, Instr.wellFormed, ← onlyA_eq_otherThanAZero]
    exact checked_ok_iff rfl (by decide)
  | pow5 o => exact checked_load_ok_iff .p5 o
  | pow5inv o => exact checked_load_ok_iff .p5inv o

/-! ### The record of a refusal (60_exceptions.md R257, log entry 8) -/

section record
variable {s : State} {r : Response}

/-- A record that is there stays. -/
theorem conclude_runFault_of_some {st : Status} (h : s.runFault = some st) : (conclude s r).runFault = some st := by
  rw [conclude_runFault, h, Option.getD_some, ite_self]

/-- Where nothing is recorded, exactly a refusal is. -/
theorem conclude_runFault_of_none (h : s.runFault = none) :
    (conclude s r).runFault = if r.status = .ok then none else some r.status := by
  rw [conclude_runFault, h, Option.getD_none]

/-- An `OK` answer records nothing. -/
theorem conclude_runFault_of_ok (h : r.status = .ok) : (conclude s r).runFault = s.runFault := by
  rw [conclude_runFault, if_pos h]

/-- The record changes only where none was held and the command was refused. -/
theorem conclude_runFault_cases (s : State) (r : Response) : (conclude s r).runFault = s.runFault ∨
    (s.runFault = none ∧ r.status ≠ .ok ∧ (conclude s r).runFault = some r.status) := by
  cases hs : s.runFault with
  | some st => exact .inl (conclude_runFault_of_some hs)
  | none =>
    rw [conclude_runFault_of_none hs]
    split
    · exact .inl rfl
    next hrefused => exact .inr ⟨rfl, hrefused, rfl⟩

end record

/-! ### The invariant -/

/-- A check keeps to the possible responses: a refusal is its code and zeros. -/
theorem checked_possible {ok : Bool} {r : Response} (hr : r.Possible) (st : Status) : (checked ok r st).Possible := by
  cases ok
  · exact ⟨fun _ => rfl, fun _ hc => (Option.some_ne_none _ hc.symm).elim, fun _ => ⟨rfl, rfl, rfl, rfl, rfl⟩⟩
  · exact hr

/-- An `OK` response with values in its two words only. -/
theorem words_possible (r0 r1 : U64) : ({ r0 := r0, r1 := r1 } : Response).Possible :=
  ⟨fun h => absurd rfl h, fun _ hc => (Option.some_ne_none _ hc.symm).elim, fun _ => ⟨rfl, rfl, rfl, rfl, rfl⟩⟩

/-- The decomposer's response keeps to the ranges of its class (40_decomposer.md R102). -/
theorem decompose_possible (f : Format) (bits : Nat) : (decompose f bits).Possible := by
  refine ⟨fun h => absurd rfl h, fun c hc => ⟨rfl, ?_⟩, fun h => (Option.some_ne_none _ h).elim⟩
  rw [← Option.some.inj (((decompose_cls f bits).symm.trans hc))]
  exact (decompose_range f bits).clsRange

theorem loadReply_possible (sp : Space) (a : Nat) : (loadReply sp a).Possible := by
  unfold loadReply
  split
  · exact words_possible _ _
  · exact checked_possible (ok := false) (words_possible 0 0) _

/-- Every operation's answer is one the invariant allows. -/
theorem reply_possible (i : Instr) : (reply i).Possible := by
  cases i with
  | dec32 o | dec64 o => exact checked_possible (decompose_possible _ _) _
  | mul64 o | mulhi64 o | mulshift64 o | pow5bits o | log10pow2 o | log10pow5 o => exact checked_possible (words_possible _ _) _
  | pow5 o | pow5inv o => exact checked_possible (loadReply_possible _ _) _

theorem replyWord_possible (w : CmdWord) : (replyWord w).Possible := by
  unfold replyWord
  split
  · exact reply_possible _
  · exact checked_possible (ok := false) (words_possible 0 0) _

section inv
variable {s t : State}

/-- A state without a response on its way meets the clauses on responses. -/
theorem inv_of_out_none (hout : s.out = none) (hsel : s.sel < s.ports.length) (hrecord : s.runFault ≠ some .ok) : s.Inv := by
  have hnone : ∀ p r, s.response p ≠ some r := fun p r h => by
    rw [response_of_out_none hout] at h
    cases h
  exact ⟨hsel, fun p r h => absurd h (hnone p r), fun p r h => absurd h (hnone p r), hrecord,
    fun _ p r h => absurd h (hnone p r)⟩

/-- The end of a transaction on a port of the block with a possible response meets the invariant. -/
theorem inv_conclude {r : Response} (hsel : s.sel < s.ports.length) (hrecord : s.runFault ≠ some .ok) (hr : r.Possible) :
    (conclude s r).Inv := by
  have hlength : (conclude s r).ports.length = s.ports.length := List.length_set
  have honly : ∀ {p r'}, (conclude s r).response p = some r' → p = s.sel ∧ r' = r := fun h => by
    cases (conclude_out s r).symm.trans (out_of_response h)
    exact ⟨rfl, rfl⟩
  refine ⟨hlength ▸ hsel, fun p r' h => ?_, fun p r' h => (honly h).2 ▸ hr, ?_, fun hclean p r' h => ?_⟩
  · rw [(honly h).1]
    exact ⟨hlength ▸ hsel, command_conclude s r⟩
  · obtain hkept | ⟨-, hrefused, hnew⟩ := conclude_runFault_cases s r
    · rwa [hkept]
    · rw [hnew]
      exact fun hok => hrefused (Option.some.inj hok)
  · rw [(honly h).2]
    by_contra hrefused
    rw [State.Clean, conclude_runFault, if_neg hrefused] at hclean
    cases hclean

/-- Every step keeps the invariant. -/
theorem step_keeps_inv (hs : s.Inv) (h : step s = .next t) : t.Inv := by
  obtain ⟨-, rfl⟩ | ⟨-, -, -, rfl⟩ | ⟨-, w, -, rfl⟩ := step_cases h
  · exact inv_of_out_none rfl (by rw [abandonAll_ports, List.length_map]; exact hs.selected) hs.record
  · exact inv_of_out_none rfl hs.selected hs.record
  · exact inv_conclude hs.selected hs.record (replyWord_possible w)

end inv

/-! ### What a step hands over, and what it does not read (10_state.md R21) -/

section out
variable {s t : State}

/-- A selection of a port that does not exist stops the model (log entry 9). -/
theorem step_absent (hr : s.rst = false) (hp : s.ports.length ≤ s.sel) : step s = .fault .absentPort := by
  simp [step, hr, State.offer, List.getElem?_eq_none hp]

/-- A port carries a response after a step exactly if the step ended the transaction there. -/
theorem response_step_iff (h : step s = .next t) (p : Nat) :
    (t.response p).isSome ↔ s.rst = false ∧ p = s.sel ∧ (s.command p).isSome := by
  obtain ⟨hr, rfl⟩ | ⟨-, -, hidle, rfl⟩ | ⟨hr, w, hw, rfl⟩ := step_cases h
  · simp [response_of_out_none (abandonAll_out s), hr]
  · rw [response_of_out_none (deliverNothing_out s)]
    refine iff_of_false Bool.false_ne_true ?_
    rintro ⟨-, rfl, hsome⟩
    rw [hidle] at hsome
    cases hsome
  · by_cases hp : p = s.sel
    · subst hp
      simp [response_conclude, hr, hw]
    · simp [response_of_out_ne (conclude_out s _) hp, hp]

/-- What a step does is decided by the inputs and the ports, so no earlier response is read. -/
theorem step_withOut (s : State) (o : Option Delivery) : step { s with out := o } = step s := by
  obtain hr | hr := Bool.eq_false_or_eq_true s.rst
  · exact (step_reset (s := { s with out := o }) hr).trans (step_reset hr).symm
  · rcases Nat.lt_or_ge s.sel s.ports.length with hp | hp
    · cases hc : s.command s.sel with
      | none => exact (step_idle (s := { s with out := o }) hr hp hc).trans (step_idle hr hp hc).symm
      | some w => exact (step_command (s := { s with out := o }) hr hc).trans (step_command hr hc).symm
    · exact (step_absent (s := { s with out := o }) hr hp).trans (step_absent hr hp).symm

end out

end Sys2Proof.Machine

open Sys2Proof Sys2Proof.Machine

namespace Sys2Proof.Proofs

/-- Settles O45: by the three things a step can do, of which one hands a response over, and that is the word's answer. -/
theorem stepKeepsInv : Obligations.StepKeepsInv :=
  fun _ _ => step_keeps_inv

/-- Settles O46: at reset nothing is on its way and nothing recorded. -/
theorem resetMeetsInv : Obligations.ResetMeetsInv :=
  inv_of_out_none rfl (by decide) (by decide)

/-- Settles O12: every operation concludes with its answer, whose status is `OK` exactly where the operand table is met. -/
theorem okExactlyForLegalCommands : Obligations.OkExactlyForLegalCommands :=
  fun i s => ⟨_, reply i, exec_eq i s, response_conclude s _, reply_ok_iff i⟩

/-- Settles O14: reset and waiting leave the record alone, and the end of a transaction writes it only where there is none. -/
theorem recordedFaultStays : Obligations.RecordedFaultStays := by
  refine ⟨fun s t f hstep hf => ?_, fun s t p w r hready htransact hnone => ?_⟩
  · obtain ⟨-, rfl⟩ | ⟨-, -, -, rfl⟩ | ⟨-, w, -, rfl⟩ := step_cases hstep
    · exact hf
    · exact hf
    · exact conclude_runFault_of_some hf
  · rw [transact_eq hready, Option.some.injEq, Prod.mk.injEq] at htransact
    obtain ⟨rfl, rfl⟩ := htransact
    exact conclude_runFault_of_none (s := s.present p w) hnone

/-- Settles O42: the selected port offers the word. -/
theorem stepRunsTheCommand : Obligations.StepRunsTheCommand := by
  intro s w i hr hc hw
  simp [step, hr, State.offer, command_eq_some.mp hc, hw]

/-- Settles O43: an idle port offers no command, and a port that does not exist stops the model. -/
theorem stepWithoutACommand : Obligations.StepWithoutACommand :=
  ⟨fun _ => step_idle, fun _ => step_absent⟩

/-- Settles O44: the end of a transaction, with the frame of `conclude`. -/
theorem operationFrame : Obligations.OperationFrame := fun i s =>
  ⟨_, reply i, exec_eq i s, rfl, command_conclude s _, fun _ hq => List.getElem?_set_ne hq.symm, List.length_set, rfl, rfl, rfl,
    fun _ _ => rfl, conclude_runFault_cases s _, conclude_runFault_of_ok⟩

/-- Settles O47: reset clears every port, on which the abandoned word presented again gets its own answer. -/
theorem resetAbandonsTransactions : Obligations.ResetAbandonsTransactions := by
  refine ⟨fun p => ⟨rfl, ?_⟩, fun s hr => ⟨_, step_reset hr, fun p => ⟨rfl, command_abandonAll p⟩, List.length_map _, rfl,
    fun p w hc => ?_⟩⟩
  · exact command_abandonAll (s := State.reset) p
  · have hready : ({ s.abandonAll with rst := false } : State).Ready p :=
      ⟨by rw [abandonAll_ports, List.length_map]; exact lt_of_command hc, command_abandonAll p, rfl⟩
    exact ⟨_, replyWord w, step_command (s := { s with sel := p, rst := false }) rfl hc, response_conclude _ _,
      response_transact w hready⟩

/-- Settles O51: of the three things a step can do, only the end of a transaction hands a response over, on its own port; and no step
reads `out`. -/
theorem nothingIsRetained : Obligations.NothingIsRetained := by
  refine ⟨fun s t hstep => ⟨response_step_iff hstep, fun p hsome => ?_⟩, step_withOut⟩
  obtain ⟨hr, rfl, hcommand⟩ := (response_step_iff hstep p).mp hsome
  obtain ⟨w, hw⟩ := Option.isSome_iff_exists.mp hcommand
  rw [step_command hr hw, Host.Outcome.next.injEq] at hstep
  exact hstep ▸ command_conclude s _

/-- Settles O52: the port keeps its word, whose answer does not depend on the state. -/
theorem transactionOnceStartedRuns : Obligations.TransactionOnceStartedRuns := by
  intro s p q w w' hr hc
  have hreset : State.reset.Ready 0 := ⟨Nat.one_pos, rfl, rfl⟩
  exact ⟨_, replyWord w, step_command (s := { s.present q w' with sel := p }) hr (command_present_of_some hc),
    response_conclude _ _, command_conclude _ _, response_transact w hreset⟩

end Sys2Proof.Proofs
end
